-- ==== Sys2Proof/Word.lean ====
section
/-! DEFINITION. The word types of CEC-PE: bytes, ticks, line levels (spec 00_scope.md R11, R12; 30_encoding.md R111). -/

namespace Sys2Proof

/-- One byte of a frame buffer or of the data port (R70). -/
abbrev Byte := BitVec 8

/-- A tick field: `TICK_W = 24` bits, unsigned (R11 (a)). -/
abbrev Tick := BitVec 24

/-- A line level (R111): `false` is 0, the line pulled low; `true` is 1, the line released. -/
abbrev Level := Bool

/-- The level 0. -/
abbrev pulledLow : Level := false

/-- The level 1. -/
abbrev released : Level := true

end Sys2Proof
end

