-- ==== Sys2Proof/Config.lean ====
section
/-! DEFINITION. The parameters of CEC-PE: the constants the source fixes (R8) and the configuration record of the
parameters it leaves open (R9), and the one value the spec does not state. -/

namespace Sys2Proof

/-- Capacity of a frame buffer in bytes, MAX_LEN (R8). -/
abbrev maxLen : Nat := 16
/-- Resends after the first attempt, MAX_RESENDS (R8). -/
abbrev maxResends : Nat := 5
/-- Nominal bit period in µs, BIT_NOM_US (R8). -/
abbrev bitNomUs : Nat := 2400
/-- Uniform tolerance in µs, TOL_US (R8). -/
abbrev tolUs : Nat := 100
/-- Noise threshold of a start-bit low in µs, DEB_LIMIT_US (R8). -/
abbrev debLimitUs : Nat := 200
/-- Short quiet period in µs, DEB_SHORT_US (R8). -/
abbrev debShortUs : Nat := 100
/-- Long quiet period in µs, DEB_LONG_US (R8). -/
abbrev debLongUs : Nat := 500
/-- Glitches before escalation, DEB_CUTOFF (R8). -/
abbrev debCutoff : Nat := 3
/-- Free-time multiple of a resend, FT_RS_MUL (R8). -/
abbrev ftRsMul : Nat := 2
/-- Free-time multiple of a new initiator, FT_NI_MUL (R8). -/
abbrev ftNiMul : Nat := 4
/-- Free-time multiple of the present initiator, FT_PI_MUL (R8). -/
abbrev ftPiMul : Nat := 6
/-- The broadcast logical address, BCAST_ADDR (R8). -/
abbrev bcastAddr : Nat := 15
/-- The unset logical address, UNREG_ADDR (R8). -/
abbrev unregAddr : Nat := 255
/-- The number of protocol states, N_STATES (R8). -/
abbrev nStates : Nat := 30

/-- The configuration record `Cfg` of R9; every duration is in µs. It is fixed for a run (R31). -/
structure Cfg where
  /-- TICKS_PER_US, ticks per µs. -/
  ticksPerUs : Nat
  /-- START_LOW_NOM_US. -/
  startLowNomUs : Nat
  /-- START_HIGH_NOM_US. -/
  startHighNomUs : Nat
  /-- START_MIN_LOW_US. -/
  startMinLowUs : Nat
  /-- START_MAX_LOW_US. -/
  startMaxLowUs : Nat
  /-- START_MIN_TOTAL_US. -/
  startMinTotalUs : Nat
  /-- START_MAX_TOTAL_US. -/
  startMaxTotalUs : Nat
  /-- D0_LOW_NOM_US. -/
  d0LowNomUs : Nat
  /-- D0_HIGH_NOM_US. -/
  d0HighNomUs : Nat
  /-- D0_MIN_LOW_US. -/
  d0MinLowUs : Nat
  /-- D0_MAX_LOW_US. -/
  d0MaxLowUs : Nat
  /-- D1_LOW_NOM_US. -/
  d1LowNomUs : Nat
  /-- D1_HIGH_NOM_US. -/
  d1HighNomUs : Nat
  /-- D1_MIN_LOW_US. -/
  d1MinLowUs : Nat
  /-- D1_MAX_LOW_US. -/
  d1MaxLowUs : Nat
  /-- D0_MIN_TOTAL_US. -/
  d0MinTotalUs : Nat
  /-- D0_MAX_TOTAL_US. -/
  d0MaxTotalUs : Nat
  /-- D1_MIN_TOTAL_US. -/
  d1MinTotalUs : Nat
  /-- D1_MAX_TOTAL_US. -/
  d1MaxTotalUs : Nat
  /-- SAMPLE_US, the safe-sample offset from the start of a bit. -/
  sampleUs : Nat
  /-- DEBOUNCE_RESET_AFTER_LONG: the glitch count is reset after a long quiet period. -/
  debounceResetAfterLong : Bool
deriving DecidableEq, Repr

/-- The default profile of R9, used by every test vector of 95_test_vectors.md. The timing values are the spec's, which
marks them general knowledge; that State.reset holds this profile is a DESIGN CHOICE (log entry 1). -/
def defaultCfg : Cfg where
  ticksPerUs := 1
  startLowNomUs := 3700
  startHighNomUs := 800
  startMinLowUs := 3500
  startMaxLowUs := 3900
  startMinTotalUs := 4300
  startMaxTotalUs := 4700
  d0LowNomUs := 1500
  d0HighNomUs := 900
  d0MinLowUs := 1300
  d0MaxLowUs := 1700
  d1LowNomUs := 600
  d1HighNomUs := 1800
  d1MinLowUs := 400
  d1MaxLowUs := 800
  d0MinTotalUs := 2050
  d0MaxTotalUs := 2750
  d1MinTotalUs := 2050
  d1MaxTotalUs := 2750
  sampleUs := 1050
  debounceResetAfterLong := false

/-- FREE VALUE (DESIGN CHOICE, log entry 8). The 16 bytes a BB.LOAD with `len` 17 to 31 leaves in its buffer, a value the
spec does not state (R147 gives `len` 1 to 16): byte `k` of the draw. -/
opaque freeBufferByte (draw k : Nat) : Byte

end Sys2Proof
end

