-- ==== Sys2Proof/Syntax.lean ====
section
/-! DEFINITION. The operations of CEC-PE: one constructor of `Instr` per row of spec/opcode_table.json, and the form in
which an operation is presented to the block, its word and its operand ports (30_encoding.md). -/

namespace Sys2Proof

/-- The two instances of the Bit Transfer Buffer (R113): `BB_rx` and `BB_tx`. -/
inductive BufSel where
  | rx
  | tx
deriving DecidableEq, Repr

/-- The symbols of R104. The code 3 is reserved and has no constructor. -/
inductive Symbol where
  | start
  | data0
  | data1
deriving DecidableEq, Repr

/-- The free-time tiers of R116. The code 3 is reserved and has no constructor. -/
inductive Tier where
  | resend
  | new
  | present
deriving DecidableEq, Repr

/-- The operations of CEC-PE: the six input operations of R101 and the nineteen sub-block operations of R113 to R115. -/
inductive Instr where
  /-- EV_CAPTURE (R102, R270): the armed edge came `elapsed` ticks after the arm. -/
  | evCapture (elapsed : Tick)
  /-- EV_TIMEOUT (R103, R271): the armed deadline expired with the bus at `line`. -/
  | evTimeout (line : Level)
  /-- CMD_ENABLE (R105, R320). -/
  | cmdEnable
  /-- CMD_DISABLE (R105, R321). -/
  | cmdDisable
  /-- CMD_SET_ADDR (R106, R322). -/
  | cmdSetAddr (addr : BitVec 8)
  /-- CMD_SUBMIT (R107, R323); `data` is the 16-byte data port. -/
  | cmdSubmit (len : BitVec 5) (data : List Byte)
  /-- BB.RESET (R141). -/
  | bbReset (b : BufSel)
  /-- BB.CLEAR (R142). -/
  | bbClear (b : BufSel)
  /-- BB.GET_BIT (R143). -/
  | bbGetBit (b : BufSel)
  /-- BB.SET_BIT (R144). -/
  | bbSetBit (b : BufSel) (v : Bool)
  /-- BB.INC_BIT (R145). -/
  | bbIncBit (b : BufSel)
  /-- BB.IS_EOM (R146). -/
  | bbIsEom (b : BufSel) (len : BitVec 5)
  /-- BB.LOAD (R147); `data` is a 16-byte operand. -/
  | bbLoad (b : BufSel) (len : BitVec 5) (data : List Byte)
  /-- BB.SNAPSHOT (R148). -/
  | bbSnapshot (b : BufSel)
  /-- TP.IS_VALID_LOW (R171). -/
  | tpIsValidLow (sym : Symbol) (t : Tick)
  /-- TP.IS_VALID_TOTAL (R172). -/
  | tpIsValidTotal (sym : Symbol) (low high : Tick)
  /-- TP.LOW_DURATION (R173). -/
  | tpLowDuration (sym : Symbol)
  /-- TP.HIGH_DURATION (R174). -/
  | tpHighDuration (sym : Symbol)
  /-- TP.CLASSIFY (R175). -/
  | tpClassify (t : Tick)
  /-- TP.CAP_LOW (R176). -/
  | tpCapLow (sym : Symbol)
  /-- TP.CAP_HIGH (R177). -/
  | tpCapHigh (sym : Symbol)
  /-- TP.FREE_TIME (R178). -/
  | tpFreeTime (tier : Tier)
  /-- DBF.CLASSIFY (R201). -/
  | dbfClassify (t : Tick)
  /-- DBF.QUIET (R202). -/
  | dbfQuiet
  /-- DBF.RESET (R203). -/
  | dbfReset
deriving DecidableEq, Repr

/-- The input operations of R101 (format EVT32), as opposed to the sub-block operations. -/
def Instr.isInputOp : Instr → Bool
  | .evCapture _ | .evTimeout _ | .cmdEnable | .cmdDisable | .cmdSetAddr _ | .cmdSubmit _ _ => true
  | .bbReset _ | .bbClear _ | .bbGetBit _ | .bbSetBit _ _ | .bbIncBit _ | .bbIsEom _ _ | .bbLoad _ _ _ | .bbSnapshot _
  | .tpIsValidLow _ _ | .tpIsValidTotal _ _ _ | .tpLowDuration _ | .tpHighDuration _ | .tpClassify _ | .tpCapLow _
  | .tpCapHigh _ | .tpFreeTime _ | .dbfClassify _ | .dbfQuiet | .dbfReset => false

/-- The word of an operation: an EVT32 word (R100) or a selector of one of the three sub-blocks (R113 to R115). -/
inductive OpWord where
  | evt32 (w : BitVec 32)
  | bb3 (op : BitVec 3)
  | tp5 (op : BitVec 5)
  | dbf2 (op : BitVec 2)
deriving DecidableEq, Repr

/-- What stands beside a word: the data port DATA[0..15] of R100 and the operand ports of R113 to R115. The form of the
ports is a DESIGN CHOICE (log entry 3). -/
structure Ports where
  /-- the instance a BB3 selector is applied to -/
  sel : BufSel
  /-- operand `v` of SET_BIT -/
  v : Bool
  /-- operand `len` of IS_EOM and LOAD -/
  len : BitVec 5
  /-- the data port of CMD_SUBMIT, the operand `data` of LOAD -/
  data : List Byte
  /-- operand `t` of IS_VALID_LOW and of the two CLASSIFY operations -/
  t : Tick
  /-- operand `low` of IS_VALID_TOTAL -/
  low : Tick
  /-- operand `high` of IS_VALID_TOTAL -/
  high : Tick
deriving DecidableEq, Repr

/-- All operand ports at 0. The spec numbers neither instance (R113): that the port naming the instance stands at BB_rx here
is a DESIGN CHOICE (log entry 24). -/
def zeroPorts : Ports where
  sel := .rx
  v := false
  len := 0
  data := List.replicate 16 0
  t := 0
  low := 0
  high := 0

/-- One operation as it is presented to the block: one word, one step (R100). -/
structure Input where
  word : OpWord
  ports : Ports
deriving DecidableEq, Repr

/-- Why a word spells no operation (R108, R117). -/
inductive DecodeError where
  /-- OP is 0x0 or 0x6 to 0xF (R101, R108). -/
  | reservedOp
  /-- A reserved field of R102 to R107 is not 0 (R108). -/
  | reservedField
  /-- A selector value that R114 or R115 marks reserved (R117). -/
  | reservedSelector
deriving DecidableEq, Repr

end Sys2Proof
end

