-- ==== Sys2Proof/WellFormed.lean ====
section
/-! DEFINITION. Well-formed operations: the data port has exactly 16 bytes (R100, R113). Every other operand's range is
its type's: reserved symbols and tiers have no constructor. -/

namespace Sys2Proof

/-- A data port holds DATA[0..15], 16 bytes (R100, R107, R113). -/
def dataPortOk (data : List Byte) : Bool := decide (data.length = 16)

/-- The check on an operation: only the two operations with a data operand can be ill-formed. -/
def WellFormed : Instr → Bool
  | .cmdSubmit _ data => dataPortOk data
  | .bbLoad _ _ data => dataPortOk data
  | .evCapture _ | .evTimeout _ | .cmdEnable | .cmdDisable | .cmdSetAddr _ => true
  | .bbReset _ | .bbClear _ | .bbGetBit _ | .bbSetBit _ _ | .bbIncBit _ | .bbIsEom _ _ | .bbSnapshot _ => true
  | .tpIsValidLow _ _ | .tpIsValidTotal _ _ _ | .tpLowDuration _ | .tpHighDuration _ | .tpClassify _ | .tpCapLow _
  | .tpCapHigh _ | .tpFreeTime _ => true
  | .dbfClassify _ | .dbfQuiet | .dbfReset => true

end Sys2Proof
end

