-- ==== Sys2Proof/Decode.lean ====
section
/-! DEFINITION. Decoding an operation from its word and ports, and the encoder (30_encoding.md R100 to R117, R122, R123).
Decoding is total: a word that spells no operation is rejected by the name of the reason (R108, R117). -/

namespace Sys2Proof

/-! ### Codes of the encoded names -/

/-- The symbol of a 2-bit code; 3 is reserved (R104). -/
def symbolOf (code : BitVec 2) : Option Symbol :=
  if code = 0 then some .start else if code = 1 then some .data0 else if code = 2 then some .data1 else none

/-- The 2-bit code of a symbol (R104). -/
def symbolCode : Symbol → BitVec 2
  | .start => 0
  | .data0 => 1
  | .data1 => 2

/-- The free-time tier of a 2-bit code; 3 is reserved (R116). -/
def tierOf (code : BitVec 2) : Option Tier :=
  if code = 0 then some .resend else if code = 1 then some .new else if code = 2 then some .present else none

/-- The 2-bit code of a free-time tier (R116). -/
def tierCode : Tier → BitVec 2
  | .resend => 0
  | .new => 1
  | .present => 2

/-- The 16 lines of the data port; a line that the list does not give reads 0 (DESIGN CHOICE, log entry 13). -/
def dataLines (p : Ports) : List Byte := (List.range 16).map (fun k => p.data.getD k 0)

/-! ### Decoding -/

/-- An EVT32 word (R100 to R108): OP in bits 31:28, reserved fields all 0. -/
def decodeEvt32 (w : BitVec 32) (p : Ports) : Except DecodeError Instr :=
  let op := w.extractLsb' 28 4
  if op = 0x1 then
    if w.extractLsb' 24 4 = 0 then .ok (.evCapture (w.extractLsb' 0 24)) else .error .reservedField
  else if op = 0x2 then
    if w.extractLsb' 1 27 = 0 then .ok (.evTimeout (w.getLsbD 0)) else .error .reservedField
  else if op = 0x3 then
    if w.extractLsb' 1 27 = 0 then .ok (if w.getLsbD 0 then .cmdEnable else .cmdDisable) else .error .reservedField
  else if op = 0x4 then
    if w.extractLsb' 8 20 = 0 then .ok (.cmdSetAddr (w.extractLsb' 0 8)) else .error .reservedField
  else if op = 0x5 then
    if w.extractLsb' 5 23 = 0 then .ok (.cmdSubmit (w.extractLsb' 0 5) (dataLines p)) else .error .reservedField
  else .error .reservedOp

/-- A Bit Transfer Buffer selector (R113): all eight codes are defined. -/
def decodeBb3 (op : BitVec 3) (p : Ports) : Instr :=
  if op = 0b000 then .bbReset p.sel
  else if op = 0b001 then .bbClear p.sel
  else if op = 0b010 then .bbGetBit p.sel
  else if op = 0b011 then .bbSetBit p.sel p.v
  else if op = 0b100 then .bbIncBit p.sel
  else if op = 0b101 then .bbIsEom p.sel p.len
  else if op = 0b110 then .bbLoad p.sel p.len (dataLines p)
  else .bbSnapshot p.sel

/-- A Timing Policy selector whose `sel` field is a symbol (R114); the reserved code is refused (R117). -/
def decodeSymbolOp (sel : BitVec 2) (mk : Symbol → Instr) : Except DecodeError Instr :=
  match symbolOf sel with
  | some s => .ok (mk s)
  | none => .error .reservedSelector

/-- A Timing Policy selector `{op[4:2], sel[1:0]}` (R114, R117). -/
def decodeTp5 (w : BitVec 5) (p : Ports) : Except DecodeError Instr :=
  let op := w.extractLsb' 2 3
  let sel := w.extractLsb' 0 2
  if op = 0b000 then decodeSymbolOp sel (fun s => .tpIsValidLow s p.t)
  else if op = 0b001 then decodeSymbolOp sel (fun s => .tpIsValidTotal s p.low p.high)
  else if op = 0b010 then decodeSymbolOp sel (fun s => .tpLowDuration s)
  else if op = 0b011 then decodeSymbolOp sel (fun s => .tpHighDuration s)
  else if op = 0b100 then (if sel = 0 then .ok (.tpClassify p.t) else .error .reservedSelector)
  else if op = 0b101 then decodeSymbolOp sel (fun s => .tpCapLow s)
  else if op = 0b110 then decodeSymbolOp sel (fun s => .tpCapHigh s)
  else
    match tierOf sel with
    | some tier => .ok (.tpFreeTime tier)
    | none => .error .reservedSelector

/-- A Debounce Filter selector (R115); the code 11 is reserved (R117). -/
def decodeDbf2 (op : BitVec 2) (p : Ports) : Except DecodeError Instr :=
  if op = 0b00 then .ok (.dbfClassify p.t)
  else if op = 0b01 then .ok .dbfQuiet
  else if op = 0b10 then .ok .dbfReset
  else .error .reservedSelector

/-- The operation an input presents, or the reason it presents none (R100, R108, R117). -/
def decode (x : Input) : Except DecodeError Instr :=
  match x.word with
  | .evt32 w => decodeEvt32 w x.ports
  | .bb3 op => .ok (decodeBb3 op x.ports)
  | .tp5 w => decodeTp5 w x.ports
  | .dbf2 op => decodeDbf2 op x.ports

/-! ### Encoding -/

/-- An EVT32 word from its OP and its 28-bit operand area (R100). -/
def evt32Word (op : BitVec 4) (operand : BitVec 28) : OpWord := .evt32 (op ++ operand)

/-- A TP5 selector from its two fields (R114). -/
def tp5Word (op : BitVec 3) (sel : BitVec 2) : OpWord := .tp5 (op ++ sel)

/-- The input that presents an operation: its word as the tables of R101 to R107 and R113 to R116 give it, its operands
on their ports and every other port at 0. -/
def encode : Instr → Input
  | .evCapture elapsed => ⟨evt32Word 0x1 (0#4 ++ elapsed), zeroPorts⟩
  | .evTimeout line => ⟨evt32Word 0x2 (0#27 ++ BitVec.ofBool line), zeroPorts⟩
  | .cmdEnable => ⟨evt32Word 0x3 1, zeroPorts⟩
  | .cmdDisable => ⟨evt32Word 0x3 0, zeroPorts⟩
  | .cmdSetAddr addr => ⟨evt32Word 0x4 (0#20 ++ addr), zeroPorts⟩
  | .cmdSubmit len data => ⟨evt32Word 0x5 (0#23 ++ len), { zeroPorts with data := data }⟩
  | .bbReset b => ⟨.bb3 0b000, { zeroPorts with sel := b }⟩
  | .bbClear b => ⟨.bb3 0b001, { zeroPorts with sel := b }⟩
  | .bbGetBit b => ⟨.bb3 0b010, { zeroPorts with sel := b }⟩
  | .bbSetBit b v => ⟨.bb3 0b011, { zeroPorts with sel := b, v := v }⟩
  | .bbIncBit b => ⟨.bb3 0b100, { zeroPorts with sel := b }⟩
  | .bbIsEom b len => ⟨.bb3 0b101, { zeroPorts with sel := b, len := len }⟩
  | .bbLoad b len data => ⟨.bb3 0b110, { zeroPorts with sel := b, len := len, data := data }⟩
  | .bbSnapshot b => ⟨.bb3 0b111, { zeroPorts with sel := b }⟩
  | .tpIsValidLow sym t => ⟨tp5Word 0b000 (symbolCode sym), { zeroPorts with t := t }⟩
  | .tpIsValidTotal sym low high => ⟨tp5Word 0b001 (symbolCode sym), { zeroPorts with low := low, high := high }⟩
  | .tpLowDuration sym => ⟨tp5Word 0b010 (symbolCode sym), zeroPorts⟩
  | .tpHighDuration sym => ⟨tp5Word 0b011 (symbolCode sym), zeroPorts⟩
  | .tpClassify t => ⟨tp5Word 0b100 0, { zeroPorts with t := t }⟩
  | .tpCapLow sym => ⟨tp5Word 0b101 (symbolCode sym), zeroPorts⟩
  | .tpCapHigh sym => ⟨tp5Word 0b110 (symbolCode sym), zeroPorts⟩
  | .tpFreeTime tier => ⟨tp5Word 0b111 (tierCode tier), zeroPorts⟩
  | .dbfClassify t => ⟨.dbf2 0b00, { zeroPorts with t := t }⟩
  | .dbfQuiet => ⟨.dbf2 0b01, zeroPorts⟩
  | .dbfReset => ⟨.dbf2 0b10, zeroPorts⟩

/-! ### Words as the opcode table numbers them -/

/-- The word of a table row given as a number of `nbits` bits. 32 bits are an EVT32 word; 3, 5 and 2 bits are a BB3, a
TP5 and a DBF2 selector. In one whole byte the three selector formats overlap and nothing in the number tells them
apart: values 0 to 7 are read as BB3, whose eight codes they are, and 8 to 31 as TP5 (DESIGN CHOICE, log entry 11). -/
def tableWord (nbits w : Nat) : OpWord :=
  if nbits = 3 then .bb3 (BitVec.ofNat 3 w)
  else if nbits = 5 then .tp5 (BitVec.ofNat 5 w)
  else if nbits = 2 then .dbf2 (BitVec.ofNat 2 w)
  else if nbits = 8 ∧ w < 8 then .bb3 (BitVec.ofNat 3 w)
  else if nbits = 8 ∧ w < 32 then .tp5 (BitVec.ofNat 5 w)
  else .evt32 (BitVec.ofNat 32 w)

/-- The input that presents a table row's word, every operand port at 0; a BB3 word therefore names BB_rx (DESIGN CHOICE,
log entry 24). -/
def tableInput (nbits w : Nat) : Input := ⟨tableWord nbits w, zeroPorts⟩

/-- The operation the decoder reads from a table row's word. -/
def decodeTableWord (nbits w : Nat) : Option Instr :=
  match decode (tableInput nbits w) with
  | .ok i => some i
  | .error _ => none

end Sys2Proof
end

