-- ==== Sys2Proof/Machine/State.lean ====
section
/-! DEFINITION. The state of CEC-PE (10_state.md R30 to R53) as plain data, its reset value (70_reset_and_hazards.md R390,
R391), and the reasons a step can stop. -/

namespace Sys2Proof.Machine

/-- The 30 protocol states in the order of their codes 0 to 29 (R109). The codes 30 and 31 are never held (R32) and have
no constructor. -/
inductive PState where
  | disabled | idle
  | txFreeTime | txStartLow | txStartHigh | txHeaderInitLow | txHeaderInitHigh | txHeaderDestLow | txHeaderDestHigh
  | txDataLow | txDataHigh | txEomLow | txEomHigh | txAckLow | txAckHigh | txAckVerify
  | rxStartLow | rxStartHigh | rxDebounce | rxHeaderInitLow | rxHeaderInitHigh | rxHeaderDestLow | rxHeaderDestHigh
  | rxEomLow | rxEomHigh | rxAckLow | rxAckVerify | rxAckFinish | rxDataLow | rxDataHigh
deriving DecidableEq, Repr

/-- The armed edge direction, ARM_EDGE (R35). -/
inductive Edge where
  | none
  | rising
  | falling
deriving DecidableEq, Repr

/-- A notification (R14, R111). RX_FRAME carries its length and 16 bytes, 0 at index `len` and above. -/
inductive Notif where
  | sendOk
  | sendFailed
  | rxFrame (len : BitVec 5) (bytes : List Byte)
deriving DecidableEq, Repr

/-- The result a command replies (R112). -/
inductive Result where
  /-- CMD_SUBMIT: ACCEPTED. -/
  | accepted
  /-- CMD_SUBMIT: BUSY. -/
  | busy
  /-- CMD_SUBMIT: DISABLED. -/
  | disabled
  /-- CMD_SUBMIT: INVALID. -/
  | invalid
  /-- CMD_SET_ADDR: OK. -/
  | ok
  /-- CMD_SET_ADDR: REJECTED. -/
  | rejected
deriving DecidableEq, Repr

/-- The record a step produces (R16); a field that no primitive set is `none`. -/
structure Out where
  /-- the level driven by `drive` -/
  gpio : Option Level
  /-- the command issued by `arm`: an edge and a timeout or none -/
  arm : Option (Edge × Option Tick)
  /-- the notification raised by `emit` -/
  notify : Option Notif
  /-- the result given by `reply` -/
  result : Option Result
deriving DecidableEq, Repr

/-- The record of a step that produced nothing. -/
def noOut : Out := ⟨none, none, none, none⟩

/-- The class of a measured low, the result of TP.CLASSIFY (R104, R175). -/
inductive BitClass where
  | data0
  | data1
  | invalid
deriving DecidableEq, Repr

/-- The class of a start-bit low, the result of DBF.CLASSIFY (R115, R201). -/
inductive StartClass where
  | validStart
  | glitch
  | abort
deriving DecidableEq, Repr

/-- The result of a sub-block selector (R113 to R115). -/
inductive SelResult where
  /-- GET_BIT, IS_EOM, IS_VALID_LOW, IS_VALID_TOTAL -/
  | bit (b : Bool)
  /-- LOW_DURATION, HIGH_DURATION, CAP_LOW, CAP_HIGH, FREE_TIME, QUIET -/
  | ticks (t : Tick)
  /-- TP.CLASSIFY -/
  | bitClass (c : BitClass)
  /-- DBF.CLASSIFY -/
  | startClass (c : StartClass)
  /-- SNAPSHOT -/
  | snapshot (n : BitVec 5) (bytes : List Byte)
deriving DecidableEq, Repr

/-- The causes of an abort, codes 1 to 6 of R351. -/
inductive AbortCause where
  | startLowInvalid
  | startTotalInvalid
  | bitLowInvalid
  | bitTotalInvalid
  | rxTimeout
  | bcastNak
deriving DecidableEq, Repr

/-- Why the run is marked refused (R108). -/
inductive RefusedInput where
  /-- a word or selector that spells no operation (R108, R117) -/
  | encoding (e : DecodeError)
  /-- an EV_CAPTURE with ELAPSED above ARM_TMO while a timeout is armed (R374) -/
  | lateCapture
deriving DecidableEq, Repr

/-- A frame buffer: the sparse list of its bytes that are not 0, the value an unlisted byte reads as (R391). -/
abbrev Memory := List Host.Cell

/-- A Bit Transfer Buffer: its 16 bytes and its cursor (R140). -/
structure BitBuffer where
  /-- RX_BUF or TX_BUF (R36, R42) -/
  buf : Memory
  /-- RX_BIT or TX_BIT (R37, R43) -/
  bit : BitVec 3
  /-- RX_BYTE or TX_BYTE (R37, R43) -/
  byte : BitVec 5
deriving DecidableEq, Repr

/-- The receive context (R30). -/
structure RxCtx where
  /-- RX_BUF, RX_BIT, RX_BYTE -/
  bb : BitBuffer
  /-- RX_EOM (R38) -/
  eom : Bool
  /-- RX_BNACK (R39) -/
  bnack : Bool
  /-- RX_LOW (R40) -/
  low : Tick
  /-- RX_DBC (R41) -/
  dbc : BitVec 2
deriving DecidableEq, Repr

/-- The transmit context (R30). -/
structure TxCtx where
  /-- TX_BUF, TX_BIT, TX_BYTE -/
  bb : BitBuffer
  /-- TX_LEN (R44) -/
  len : BitVec 5
  /-- TX_RESENDS (R45) -/
  resends : BitVec 3
  /-- TX_ACK (R46) -/
  ack : Bool
  /-- TX_PI (R47) -/
  pi : Bool
deriving DecidableEq, Repr

/-- The state: the registers of R30, and the model's own fields `cfg`, `inputs`, `out`, `selResult`, `abortCause`,
`refusedMark` and `freeDraws`. -/
structure State where
  /-- STATE (R32) -/
  state : PState
  /-- LADDR (R33) -/
  laddr : BitVec 8
  /-- GPIO_OUT (R34) -/
  gpioOut : Level
  /-- ARM_EDGE (R35) -/
  armEdge : Edge
  /-- ARM_TV (R35) -/
  armTv : Bool
  /-- ARM_TMO (R35) -/
  armTmo : Tick
  /-- the receive context -/
  rx : RxCtx
  /-- the transmit context -/
  tx : TxCtx
  /-- the configuration of the run (R9, R31), written by no step (log entry 1) -/
  cfg : Cfg
  /-- the input operations not yet consumed (log entry 2) -/
  inputs : List Input
  /-- what the last step produced (R16; log entry 6) -/
  out : Out
  /-- the result of the last sub-block selector (log entry 6) -/
  selResult : Option SelResult
  /-- ghost: the cause of the abort the last step raised (R359; log entry 7) -/
  abortCause : Option AbortCause
  /-- the mark of a refused input, kept for the whole run (R108; log entry 4) -/
  refusedMark : Option RefusedInput
  /-- how many free values the run has drawn (log entry 8) -/
  freeDraws : Nat
deriving DecidableEq, Repr

/-- A Bit Transfer Buffer at reset: bytes 0, cursor (0, 0) (R391). -/
def resetBuffer : BitBuffer := ⟨[], 0, 0⟩

/-- The state right after reset (R390, R391). Every register has the value the spec states. The configuration is the
default profile of R9 (DESIGN CHOICE, log entry 1), no input is waiting (log entry 2) and no free value has been drawn
(DESIGN CHOICE, log entry 8). -/
def State.reset : State where
  state := .disabled
  laddr := 255
  gpioOut := released
  armEdge := .none
  armTv := false
  armTmo := 0
  rx := ⟨resetBuffer, false, false, 0, 0⟩
  tx := ⟨resetBuffer, 0, 0, false, false⟩
  cfg := defaultCfg
  inputs := []
  out := noOut
  selResult := none
  abortCause := none
  refusedMark := none
  freeDraws := 0

/-- The registers of the table of R52. -/
inductive Reg where
  | state | laddr | gpioOut | armEdge | armTv | armTmo
  | rxBuf (k : Fin 16) | rxBit | rxByte | rxEom | rxBnack | rxLow | rxDbc
  | txBuf (k : Fin 16) | txBit | txByte | txLen | txResends | txAck | txPi
deriving DecidableEq, Repr

/-- Why the machine stops with a fault: for no reason. The block has no fault state (93, Part B), so this type has no
constructor and no operation can answer with a fault. -/
inductive Fault where
deriving DecidableEq, Repr

/-- Why a step has no meaning. -/
inductive Refusal where
  /-- Raised by an arm of `exec` whose instruction has no meaning yet; no arm does. Safe. -/
  | notModelled (mnemonic : String)
  /-- Raised by `step` when the configuration fails R11: the spec gives no run for it (U3). Safe (log entry 14). -/
  | illFormedConfig
deriving DecidableEq, Repr

end Sys2Proof.Machine
end

