-- ==== Sys2Proof/Machine/TimingPolicy.lean ====
section
/-! DEFINITION. The Timing Policy (41_timing_policy.md R170 to R180) over mathematical integers (R12), the derived
constants of R179, and the well-formedness of a configuration (R11). -/

namespace Sys2Proof.Machine

/-- A duration of `us` µs in ticks, exactly (R10). -/
def ticksOf (c : Cfg) (us : Nat) : Int := (us : Int) * (c.ticksPerUs : Int)

/-- A duration as a 24-bit tick field (R110, R114). -/
def toTick (z : Int) : Tick := BitVec.ofInt 24 z

/-- A tick field as an integer (R12). -/
def tickInt (t : Tick) : Int := (t.toNat : Int)

/-- TOL in ticks (R8, R10). -/
def tol (c : Cfg) : Int := ticksOf c tolUs
/-- BIT_NOM in ticks (R8, R10). -/
def bitNom (c : Cfg) : Int := ticksOf c bitNomUs
/-- SAMPLE in ticks (R9, R10). -/
def sample (c : Cfg) : Int := ticksOf c c.sampleUs
/-- DEB_LIMIT in ticks (R8, R10). -/
def debLimit (c : Cfg) : Int := ticksOf c debLimitUs
/-- DEB_SHORT in ticks (R8, R10). -/
def debShort (c : Cfg) : Int := ticksOf c debShortUs
/-- DEB_LONG in ticks (R8, R10). -/
def debLong (c : Cfg) : Int := ticksOf c debLongUs

/-- The data symbol of a bit, `DATA_b` (R104). -/
def dataSymbol (b : Bool) : Symbol := if b then .data1 else .data0

/-- LOW_NOM of the symbol table (R170). -/
def lowNom (c : Cfg) : Symbol → Int
  | .start => ticksOf c c.startLowNomUs
  | .data0 => ticksOf c c.d0LowNomUs
  | .data1 => ticksOf c c.d1LowNomUs

/-- HIGH_NOM of the symbol table (R170). -/
def highNom (c : Cfg) : Symbol → Int
  | .start => ticksOf c c.startHighNomUs
  | .data0 => ticksOf c c.d0HighNomUs
  | .data1 => ticksOf c c.d1HighNomUs

/-- MIN_LOW of the symbol table (R170). -/
def minLow (c : Cfg) : Symbol → Int
  | .start => ticksOf c c.startMinLowUs
  | .data0 => ticksOf c c.d0MinLowUs
  | .data1 => ticksOf c c.d1MinLowUs

/-- MAX_LOW of the symbol table (R170). -/
def maxLow (c : Cfg) : Symbol → Int
  | .start => ticksOf c c.startMaxLowUs
  | .data0 => ticksOf c c.d0MaxLowUs
  | .data1 => ticksOf c c.d1MaxLowUs

/-- MIN_TOTAL of the symbol table (R170). -/
def minTotal (c : Cfg) : Symbol → Int
  | .start => ticksOf c c.startMinTotalUs
  | .data0 => ticksOf c c.d0MinTotalUs
  | .data1 => ticksOf c c.d1MinTotalUs

/-- MAX_TOTAL of the symbol table (R170). -/
def maxTotal (c : Cfg) : Symbol → Int
  | .start => ticksOf c c.startMaxTotalUs
  | .data0 => ticksOf c c.d0MaxTotalUs
  | .data1 => ticksOf c c.d1MaxTotalUs

/-- IS_VALID_LOW (R171): both bounds inclusive, widened by TOL. -/
def isValidLow (c : Cfg) (sym : Symbol) (t : Tick) : Bool :=
  decide (minLow c sym - tol c ≤ tickInt t) && decide (tickInt t ≤ maxLow c sym + tol c)

/-- IS_VALID_TOTAL (R172): the exact sum against inclusive bounds widened by TOL. -/
def isValidTotal (c : Cfg) (sym : Symbol) (low high : Tick) : Bool :=
  decide (minTotal c sym - tol c ≤ tickInt low + tickInt high) &&
    decide (tickInt low + tickInt high ≤ maxTotal c sym + tol c)

/-- LOW_DURATION (R173). -/
def lowDuration (c : Cfg) (sym : Symbol) : Tick := toTick (lowNom c sym)

/-- HIGH_DURATION (R174). -/
def highDuration (c : Cfg) (sym : Symbol) : Tick := toTick (highNom c sym)

/-- CLASSIFY of a data low (R175): DATA0 is tested first. -/
def classifyLow (c : Cfg) (t : Tick) : BitClass :=
  if isValidLow c .data0 t then .data0 else if isValidLow c .data1 t then .data1 else .invalid

/-- CAP_START_LOW (R179). -/
def capStartLow (c : Cfg) : Int := maxLow c .start + tol c
/-- CAP_START_HIGH (R179). -/
def capStartHigh (c : Cfg) : Int := (maxTotal c .start + tol c) - (minLow c .start - tol c)
/-- CAP_DATA_LOW (R179). -/
def capDataLow (c : Cfg) : Int := max (maxLow c .data0) (maxLow c .data1) + tol c
/-- CAP_DATA_HIGH (R179). -/
def capDataHigh (c : Cfg) : Int :=
  max (maxTotal c .data0 + tol c - (minLow c .data0 - tol c)) (maxTotal c .data1 + tol c - (minLow c .data1 - tol c))
/-- TX_ACK_LOW (R179). -/
def txAckLowTime (c : Cfg) : Int := lowNom c .data1
/-- TX_ACK_HIGH (R179). -/
def txAckHighTime (c : Cfg) : Int := sample c - lowNom c .data1
/-- TX_ACK_TAIL (R179). -/
def txAckTail (c : Cfg) : Int := bitNom c - sample c
/-- RX_ACK_TO_SAMPLE (R179). -/
def rxAckToSample (c : Cfg) : Int := sample c
/-- RX_ACK_HOLD (R179). -/
def rxAckHold (c : Cfg) : Int := lowNom c .data0 - sample c
/-- RX_ACK_TAIL (R179). -/
def rxAckTail (c : Cfg) : Int := highNom c .data0

/-- CAP_LOW (R176). -/
def capLow (c : Cfg) : Symbol → Tick
  | .start => toTick (capStartLow c)
  | .data0 => toTick (capDataLow c)
  | .data1 => toTick (capDataLow c)

/-- CAP_HIGH (R177). -/
def capHigh (c : Cfg) : Symbol → Tick
  | .start => toTick (capStartHigh c)
  | .data0 => toTick (capDataHigh c)
  | .data1 => toTick (capDataHigh c)

/-- The free times FT_RS, FT_NI, FT_PI (R8, R10, R178). -/
def freeTimeInt (c : Cfg) : Tier → Int
  | .resend => (ftRsMul : Int) * bitNom c
  | .new => (ftNiMul : Int) * bitNom c
  | .present => (ftPiMul : Int) * bitNom c

/-- FREE_TIME (R178). -/
def freeTime (c : Cfg) (tier : Tier) : Tick := toTick (freeTimeInt c tier)

/-- The tier used on TxFreeTime entry (R178, R226). -/
def selectTier (resends : BitVec 3) (present : Bool) : Tier :=
  if resends.toNat > 0 then .resend else if present then .present else .new

/-! ### Well-formed configurations (R11) -/

/-- Every tick value of R8 to R10 and R179. -/
def tickValues (c : Cfg) : List Int :=
  [bitNom c, tol c, debLimit c, debShort c, debLong c, sample c] ++
  [lowNom c .start, highNom c .start, minLow c .start, maxLow c .start, minTotal c .start, maxTotal c .start] ++
  [lowNom c .data0, highNom c .data0, minLow c .data0, maxLow c .data0, minTotal c .data0, maxTotal c .data0] ++
  [lowNom c .data1, highNom c .data1, minLow c .data1, maxLow c .data1, minTotal c .data1, maxTotal c .data1] ++
  [capStartLow c, capStartHigh c, capDataLow c, capDataHigh c] ++
  [txAckLowTime c, txAckHighTime c, txAckTail c, rxAckToSample c, rxAckHold c, rxAckTail c] ++
  [freeTimeInt c .resend, freeTimeInt c .new, freeTimeInt c .present]

/-- R11 (a): every tick value fits a 24-bit field; R9: TICKS_PER_US is positive. -/
def cfgFits (c : Cfg) : Bool := decide (0 < c.ticksPerUs) && (tickValues c).all (fun v => decide (v < 2 ^ 24))

/-- R11 (b): a data bit's nominal low and high are the bit period. -/
def cfgBitPeriod (c : Cfg) : Bool :=
  decide (lowNom c .data0 + highNom c .data0 = bitNom c) && decide (lowNom c .data1 + highNom c .data1 = bitNom c)

/-- R11 (c): the sample point lies between the two nominal lows. -/
def cfgSample (c : Cfg) : Bool :=
  decide (lowNom c .data1 < sample c) && decide (sample c < lowNom c .data0) && decide (lowNom c .data0 < bitNom c)

/-- R11 (d): the widened data windows do not overlap. -/
def cfgDisjoint (c : Cfg) : Bool := decide (maxLow c .data1 + tol c < minLow c .data0 - tol c)

/-- R11 (e): a glitch is never a valid start low. -/
def cfgGlitch (c : Cfg) : Bool := decide (debLimit c ≤ minLow c .start - tol c)

/-- R11 (f) for one symbol: its nominal durations lie inside its windows. -/
def cfgNominal (c : Cfg) (sym : Symbol) : Bool :=
  decide (minLow c sym ≤ lowNom c sym) && decide (lowNom c sym ≤ maxLow c sym) &&
    decide (minTotal c sym ≤ lowNom c sym + highNom c sym) && decide (lowNom c sym + highNom c sym ≤ maxTotal c sym)

/-- A configuration is well-formed when R11 (a) to (f) hold. -/
def cfgWf (c : Cfg) : Bool :=
  cfgFits c && cfgBitPeriod c && cfgSample c && cfgDisjoint c && cfgGlitch c &&
    cfgNominal c .start && cfgNominal c .data0 && cfgNominal c .data1

end Sys2Proof.Machine
end

