-- ==== Sys2Proof/Machine/Debounce.lean ====
section
/-! DEFINITION. The Debounce Filter (42_debounce.md R200 to R203). Its only state is RX_DBC. -/

namespace Sys2Proof.Machine

/-- CLASSIFY of a start-bit low (R201): the valid window first, then the strict glitch test. -/
def classifyStart (c : Cfg) (t : Tick) : StartClass :=
  if isValidLow c .start t then .validStart else if tickInt t < debLimit c then .glitch else .abort

/-- The quiet period of QUIET (R202). -/
def quietPeriod (c : Cfg) (dbc : BitVec 2) : Tick := toTick (if dbc.toNat ≥ debCutoff then debLong c else debShort c)

/-- RX_DBC after QUIET (R202). -/
def quietCount (c : Cfg) (dbc : BitVec 2) : BitVec 2 :=
  if dbc.toNat ≥ debCutoff then (if c.debounceResetAfterLong then 0 else dbc) else dbc + 1

end Sys2Proof.Machine
end

