-- ==== Sys2Proof/Machine/Memory.lean ====
section
/-! DEFINITION. The two frame buffers as memories (20_memory.md R70, R75 to R78): one byte read, one byte written, in one
canonical form. -/

namespace Sys2Proof.Machine

/-- What an unlisted byte reads as: 0, the reset value of every buffer byte (R391). -/
def unlistedByte : Byte := 0

/-- `MemRead(B, k, 1)` (R13). -/
def memRead : Memory → Nat → Byte
  | [], _ => unlistedByte
  | (a, b) :: m, k => if a = k then b else memRead m k

/-- `MemWrite(B, k, 1, v)` (R13): the entry goes where the addresses keep rising, and a byte that becomes 0 loses its
entry. -/
def memWrite : Memory → Nat → Byte → Memory
  | [], k, v => if v = unlistedByte then [] else [(k, v)]
  | (a, b) :: m, k, v =>
    if k < a then (if v = unlistedByte then (a, b) :: m else (k, v) :: (a, b) :: m)
    else if k = a then (if v = unlistedByte then m else (k, v) :: m)
    else (a, b) :: memWrite m k v

/-- The canonical form: addresses strictly rising, all of them bytes 0 to 15 that exist (R70), no entry that an unlisted
byte would also read as. -/
def Memory.wf (m : Memory) : Bool :=
  decide (m.Pairwise (fun x y => x.1 < y.1)) && m.all (fun c => decide (c.1 < maxLen) && decide (c.2 ≠ unlistedByte))

/-- The writes `for k in 0..n-1: MemWrite(B, k, 1, f k)` of CLEAR and LOAD (R142, R147). -/
def memFill (f : Nat → Byte) (m : Memory) : Nat → Memory
  | 0 => m
  | n + 1 => memWrite (memFill f m n) n (f n)

end Sys2Proof.Machine
end

