-- ==== Sys2Proof/Machine/BitBuffer.lean ====
section
/-! DEFINITION. The operations of the Bit Transfer Buffer (40_bit_buffer.md R140 to R149) on one instance. -/

namespace Sys2Proof.Machine

/-- The bit of a byte that cursor bit index `i` addresses: bit `7 - i`, most significant first (R72). -/
def wireBit (b : Byte) (i : BitVec 3) : Bool := b.getLsbD (7 - i.toNat)

/-- A byte with the bit that cursor bit index `i` addresses set to `v` (R144). -/
def withWireBit (b : Byte) (i : BitVec 3) (v : Bool) : Byte :=
  (b &&& ~~~((1 : Byte) <<< (7 - i.toNat))) ||| ((if v then (1 : Byte) else 0) <<< (7 - i.toNat))

/-- RESET (R141). -/
def BitBuffer.reset (b : BitBuffer) : BitBuffer := { b with bit := 0, byte := 0 }

/-- CLEAR (R142). -/
def BitBuffer.clear (b : BitBuffer) : BitBuffer := ⟨memFill (fun _ => 0) b.buf maxLen, 0, 0⟩

/-- GET_BIT (R143): 0 at the one-past-end position. -/
def BitBuffer.getBit (b : BitBuffer) : Bool :=
  if b.byte.toNat ≥ maxLen then false else wireBit (memRead b.buf b.byte.toNat) b.bit

/-- SET_BIT(v) (R144): no effect at the one-past-end position. -/
def BitBuffer.setBit (v : Bool) (b : BitBuffer) : BitBuffer :=
  if b.byte.toNat ≥ maxLen then b
  else { b with buf := memWrite b.buf b.byte.toNat (withWireBit (memRead b.buf b.byte.toNat) b.bit v) }

/-- INC_BIT (R145): saturates at the one-past-end position. -/
def BitBuffer.incBit (b : BitBuffer) : BitBuffer :=
  if b.byte.toNat ≥ maxLen then b
  else if b.bit.toNat < 7 then { b with bit := b.bit + 1 }
  else { b with bit := 0, byte := b.byte + 1 }

/-- IS_EOM(len) (R146). -/
def BitBuffer.isEom (len : BitVec 5) (b : BitBuffer) : Bool := decide (b.bit = 0) && decide (b.byte = len)

/-- LOAD(len, data) (R147), for a length of at most 16. -/
def BitBuffer.load (len : Nat) (data : List Byte) (b : BitBuffer) : BitBuffer :=
  { b with buf := memFill (fun k => data.getD k 0) b.buf len }

/-- The 16 free bytes of a draw: what a LOAD with a length above 16, for which R147 states no result, leaves in its buffer
(log entry 8). -/
def freeBytes (draw : Nat) : List Byte := (List.range maxLen).map (freeBufferByte draw)

/-- The bytes of SNAPSHOT (R148): `B[k]` below the byte index, 0 from there on. -/
def BitBuffer.snapshotBytes (b : BitBuffer) : List Byte :=
  (List.range maxLen).map (fun k => if k < b.byte.toNat then memRead b.buf k else 0)

/-- SNAPSHOT (R148): the byte index and the bytes. -/
def BitBuffer.snapshot (b : BitBuffer) : BitVec 5 × List Byte := (b.byte, b.snapshotBytes)

/-- `init(B)`, the initiator address in bits 7:4 of the header (R73, R149). -/
def BitBuffer.init (b : BitBuffer) : BitVec 4 := (memRead b.buf 0).extractLsb' 4 4

/-- `dest(B)`, the destination address in bits 3:0 of the header (R73, R149). -/
def BitBuffer.dest (b : BitBuffer) : BitVec 4 := (memRead b.buf 0).extractLsb' 0 4

end Sys2Proof.Machine
end

