-- ==== Sys2Proof/Machine/Flags.lean ====
section
/-! DEFINITION. The values of the four flags RX_EOM, RX_BNACK, TX_ACK and TX_PI (R49) and the conditions the entry actions
and transitions test. -/

namespace Sys2Proof.Machine

/-- A frame is broadcast when its destination is 15 (R73). -/
def isBroadcast (b : BitBuffer) : Bool := decide (b.dest.toNat = bcastAddr)

/-- A frame's destination is the device's logical address (R249, R251). -/
def isAddressedTo (laddr : BitVec 8) (b : BitBuffer) : Bool := decide (b.dest.setWidth 8 = laddr)

/-- LINE = 0 at the sample (R239, R250). LINE is the operand of the timeout being processed; there is none in a step that
is no timeout, and no such step reads it (R220; log entry 10). -/
def lineIsLow (line : Option Level) : Bool := decide (line = some pulledLow)

/-- TX_ACK (R239): the line low at the sample is an acknowledgment, and the opposite for a broadcast frame. -/
def ackFlag (line : Option Level) (tx : BitBuffer) : Bool :=
  if isBroadcast tx then !lineIsLow line else lineIsLow line

/-- RX_BNACK (R250): a broadcast frame with the line low at the sample. -/
def bnackFlag (line : Option Level) (rx : BitBuffer) : Bool := isBroadcast rx && lineIsLow line

/-- The bit a valid class of a low stands for (R277, R280). -/
def classBit (c : BitClass) : Bool := decide (c = .data1)

/-- The byte just acknowledged ends the frame: EOM, or the buffer is full (R251, R307). -/
def isFinalByte (rx : RxCtx) : Bool := rx.eom || decide (rx.bb.byte.toNat ≥ maxLen)

/-- A finished frame is delivered when it is addressed to the device or broadcast (R251). -/
def isForUs (laddr : BitVec 8) (rx : BitBuffer) : Bool := isAddressedTo laddr rx || isBroadcast rx

/-- The block pulls the line low in the ACK slot of a direct frame addressed to it (R249). -/
def drivesAck (laddr : BitVec 8) (rx : BitBuffer) : Bool := !isBroadcast rx && isAddressedTo laddr rx

end Sys2Proof.Machine
end

