-- ==== Sys2Proof/Machine/Primitives.lean ====
section
/-! DEFINITION. The side-effect primitives of R14, the only way a rule affects the outside, and the record of a step
(R16). -/

namespace Sys2Proof.Machine

/-- A step begins with nothing produced (R16): the record of the step before is dropped (log entry 6). -/
def State.beginStep (s : State) : State := { s with out := noOut, selResult := none, abortCause := none }

/-- `drive(v)`: the line output becomes `v` (R14, R34). -/
def State.drive (v : Level) (s : State) : State := { s with gpioOut := v, out := { s.out with gpio := some v } }

/-- `arm(edge, tmo)`: one arm command, which replaces the arm shadow (R14, R35, R372). -/
def State.arm (edge : Edge) (tmo : Option Tick) (s : State) : State :=
  { s with armEdge := edge, armTv := tmo.isSome, armTmo := tmo.getD 0, out := { s.out with arm := some (edge, tmo) } }

/-- `emit(n)`: one notification (R14). -/
def State.emit (n : Notif) (s : State) : State := { s with out := { s.out with notify := some n } }

/-- `reply(r)`: the synchronous result of a command (R14). -/
def State.reply (r : Result) (s : State) : State := { s with out := { s.out with result := some r } }

/-- The result of a sub-block selector (R113 to R115; log entry 6). -/
def State.giveResult (r : SelResult) (s : State) : State := { s with selResult := some r }

/-- The mark of a refused input, kept for the whole run: the first one stays (R108; log entry 4). -/
def State.markRefused (why : RefusedInput) (s : State) : State :=
  { s with refusedMark := s.refusedMark.or (some why) }

/-- One free value is drawn: the next draw is another one (log entry 8). -/
def State.drawFree (s : State) : State := { s with freeDraws := s.freeDraws + 1 }

end Sys2Proof.Machine
end

