-- ==== Sys2Proof/Machine/Entry.lean ====
section
/-! DEFINITION. State entry (43_state_entry.md): the entry action of each of the 30 states, one definition per rule R224 to
R253, and `enter` (R220). -/

namespace Sys2Proof.Machine

/-! ### Updates of the contexts -/

/-- A change of the receive context. -/
def State.mapRx (f : RxCtx → RxCtx) (s : State) : State := { s with rx := f s.rx }

/-- A change of the transmit context. -/
def State.mapTx (f : TxCtx → TxCtx) (s : State) : State := { s with tx := f s.tx }

/-- The receive context cleared by the Disabled entry (R224). -/
def clearRx (rx : RxCtx) : RxCtx := ⟨rx.bb.clear, false, false, 0, 0⟩

/-- The transmit context cleared by the Disabled entry (R224). -/
def clearTx (tx : TxCtx) : TxCtx := ⟨tx.bb.clear, 0, 0, false, false⟩

/-- The receive context reset by the Idle entry (R225): RX_DBC and the buffer bytes are kept. -/
def idleRx (rx : RxCtx) : RxCtx := ⟨rx.bb.reset, false, false, 0, rx.dbc⟩

/-- The transmit cursor reset of BB_tx.RESET (R225, R227, R274). -/
def resetTxCursor (tx : TxCtx) : TxCtx := { tx with bb := tx.bb.reset }

/-! ### Shared actions -/

/-- The action of every Tx data-bit low state: drive low for the low time of the bit at the cursor (R229). -/
def driveBitLow (s : State) : State :=
  (s.drive pulledLow).arm .none (some (lowDuration s.cfg (dataSymbol s.tx.bb.getBit)))

/-- The action of every Tx data-bit high state: release for the high time of the bit at the cursor (R230). -/
def driveBitHigh (s : State) : State :=
  (s.drive released).arm .none (some (highDuration s.cfg (dataSymbol s.tx.bb.getBit)))

/-- The action of every Rx low state: wait for the rising edge (R243). -/
def awaitRising (s : State) : State := s.arm .rising (some (capLow s.cfg .data0))

/-- The action of every Rx high state: wait for the falling edge (R244). -/
def awaitFalling (s : State) : State := s.arm .falling (some (capHigh s.cfg .data0))

/-! ### Entry action per state -/

/-- R224. -/
def entryDisabled (s : State) : State := (((s.drive released).mapRx clearRx).mapTx clearTx).arm .none none

/-- R226. -/
def entryTxFreeTime (s : State) : State :=
  (s.drive released).arm .falling (some (freeTime s.cfg (selectTier s.tx.resends s.tx.pi)))

/-- The register resets of the Idle entry (R225). -/
def idleResets (s : State) : State := (s.mapRx idleRx).mapTx resetTxCursor

/-- R225: with a frame pending the entry chains into TxFreeTime in the same step, so that the step has one drive and one
arm, both TxFreeTime's (R221, C17). -/
def entryIdle (s : State) : State :=
  if (idleResets s).tx.len ≠ 0 then entryTxFreeTime { idleResets s with state := .txFreeTime }
  else ((idleResets s).drive released).arm .falling none

/-- R227. -/
def entryTxStartLow (s : State) : State :=
  ((s.drive pulledLow).mapTx (fun tx => resetTxCursor { tx with pi := true })).arm .none
    (some (lowDuration s.cfg .start))

/-- R228. -/
def entryTxStartHigh (s : State) : State := (s.drive released).arm .none (some (highDuration s.cfg .start))

/-- R229. -/
def entryTxHeaderInitLow (s : State) : State := driveBitLow s

/-- R230. -/
def entryTxHeaderInitHigh (s : State) : State := driveBitHigh s

/-- R231. -/
def entryTxHeaderDestLow (s : State) : State := driveBitLow s

/-- R232. -/
def entryTxHeaderDestHigh (s : State) : State := driveBitHigh s

/-- R233. -/
def entryTxDataLow (s : State) : State := driveBitLow s

/-- R234. -/
def entryTxDataHigh (s : State) : State := driveBitHigh s

/-- R235. -/
def entryTxEomLow (s : State) : State :=
  (s.drive pulledLow).arm .none (some (lowDuration s.cfg (dataSymbol (s.tx.bb.isEom s.tx.len))))

/-- R236. -/
def entryTxEomHigh (s : State) : State :=
  (s.drive released).arm .none (some (highDuration s.cfg (dataSymbol (s.tx.bb.isEom s.tx.len))))

/-- R237. -/
def entryTxAckLow (s : State) : State := (s.drive pulledLow).arm .none (some (toTick (txAckLowTime s.cfg)))

/-- R238. -/
def entryTxAckHigh (s : State) : State := (s.drive released).arm .none (some (toTick (txAckHighTime s.cfg)))

/-- R239: no drive; the flag is taken from the line of the TxAckHigh timeout. -/
def entryTxAckVerify (line : Option Level) (s : State) : State :=
  (s.mapTx (fun tx => { tx with ack := ackFlag line tx.bb })).arm .none (some (toTick (txAckTail s.cfg)))

/-- R240. -/
def entryRxStartLow (s : State) : State :=
  (s.mapTx (fun tx => { tx with pi := false })).arm .rising (some (capLow s.cfg .start))

/-- R241. -/
def entryRxStartHigh (s : State) : State := s.arm .falling (some (capHigh s.cfg .start))

/-- R242. -/
def entryRxDebounce (s : State) : State :=
  (s.mapRx (fun rx => { rx with dbc := quietCount s.cfg rx.dbc })).arm .none (some (quietPeriod s.cfg s.rx.dbc))

/-- R243. -/
def entryRxHeaderInitLow (s : State) : State := awaitRising s

/-- R244. -/
def entryRxHeaderInitHigh (s : State) : State := awaitFalling s

/-- R245. -/
def entryRxHeaderDestLow (s : State) : State := awaitRising s

/-- R246. -/
def entryRxHeaderDestHigh (s : State) : State := awaitFalling s

/-- R247. -/
def entryRxEomLow (s : State) : State := awaitRising s

/-- R248. -/
def entryRxEomHigh (s : State) : State := awaitFalling s

/-- R249: the line is pulled only for a direct frame addressed to the device. -/
def entryRxAckLow (s : State) : State :=
  (if drivesAck s.laddr s.rx.bb then s.drive pulledLow else s).arm .none (some (toTick (rxAckToSample s.cfg)))

/-- R250: no drive; the flag is taken from the line of the RxAckLow timeout. -/
def entryRxAckVerify (line : Option Level) (s : State) : State :=
  (s.mapRx (fun rx => { rx with bnack := bnackFlag line rx.bb })).arm .none (some (toTick (rxAckHold s.cfg)))

/-- R251: the line is released; a final byte delivers the frame if it is for the device, and waits for the end of the
bit; another byte's falling edge is awaited otherwise. -/
def entryRxAckFinish (s : State) : State :=
  if isFinalByte s.rx then
    (if isForUs s.laddr s.rx.bb then (s.drive released).emit (.rxFrame s.rx.bb.snapshot.1 s.rx.bb.snapshot.2)
      else s.drive released).arm .none (some (toTick (rxAckTail s.cfg)))
  else (s.drive released).arm .falling (some (capHigh s.cfg .data0))

/-- R252. -/
def entryRxDataLow (s : State) : State := awaitRising s

/-- R253. -/
def entryRxDataHigh (s : State) : State := awaitFalling s

/-! ### Entering a state -/

/-- The entry action of a state; `line` is the operand of the timeout being processed, read by two states (R220). -/
def entryAction (p : PState) (line : Option Level) (s : State) : State :=
  match p with
  | .disabled => entryDisabled s
  | .idle => entryIdle s
  | .txFreeTime => entryTxFreeTime s
  | .txStartLow => entryTxStartLow s
  | .txStartHigh => entryTxStartHigh s
  | .txHeaderInitLow => entryTxHeaderInitLow s
  | .txHeaderInitHigh => entryTxHeaderInitHigh s
  | .txHeaderDestLow => entryTxHeaderDestLow s
  | .txHeaderDestHigh => entryTxHeaderDestHigh s
  | .txDataLow => entryTxDataLow s
  | .txDataHigh => entryTxDataHigh s
  | .txEomLow => entryTxEomLow s
  | .txEomHigh => entryTxEomHigh s
  | .txAckLow => entryTxAckLow s
  | .txAckHigh => entryTxAckHigh s
  | .txAckVerify => entryTxAckVerify line s
  | .rxStartLow => entryRxStartLow s
  | .rxStartHigh => entryRxStartHigh s
  | .rxDebounce => entryRxDebounce s
  | .rxHeaderInitLow => entryRxHeaderInitLow s
  | .rxHeaderInitHigh => entryRxHeaderInitHigh s
  | .rxHeaderDestLow => entryRxHeaderDestLow s
  | .rxHeaderDestHigh => entryRxHeaderDestHigh s
  | .rxEomLow => entryRxEomLow s
  | .rxEomHigh => entryRxEomHigh s
  | .rxAckLow => entryRxAckLow s
  | .rxAckVerify => entryRxAckVerify line s
  | .rxAckFinish => entryRxAckFinish s
  | .rxDataLow => entryRxDataLow s
  | .rxDataHigh => entryRxDataHigh s

/-- `enter(S)`: STATE becomes `S`, then the entry action of `S` runs (R14, R220). -/
def enter (p : PState) (line : Option Level) (s : State) : State := entryAction p line { s with state := p }

end Sys2Proof.Machine
end

