-- ==== Sys2Proof/Machine/Operands.lean ====
section
/-! DEFINITION. Operand forms: the Bit Transfer Buffer a selector is applied to (R113), the registers by their numbers
(R52), the legal logical addresses (R33). The fields of the words are decoded in Decode.lean (R122). -/

namespace Sys2Proof.Machine

/-- The instance a BB3 selector names (R113). -/
def State.buffer (s : State) : BufSel → BitBuffer
  | .rx => s.rx.bb
  | .tx => s.tx.bb

/-- The state with one instance replaced; the other instance is not touched (R140). -/
def State.withBuffer (s : State) (b : BufSel) (v : BitBuffer) : State :=
  match b with
  | .rx => { s with rx := { s.rx with bb := v } }
  | .tx => { s with tx := { s.tx with bb := v } }

/-- The logical addresses LADDR may hold: 0 to 15 and 255 (R33, R322). -/
def legalAddr (a : BitVec 8) : Bool := decide (a.toNat ≤ 15) || decide (a.toNat = unregAddr)

/-- The code of a protocol state (R109). -/
def stateCode : PState → Nat
  | .disabled => 0
  | .idle => 1
  | .txFreeTime => 2
  | .txStartLow => 3
  | .txStartHigh => 4
  | .txHeaderInitLow => 5
  | .txHeaderInitHigh => 6
  | .txHeaderDestLow => 7
  | .txHeaderDestHigh => 8
  | .txDataLow => 9
  | .txDataHigh => 10
  | .txEomLow => 11
  | .txEomHigh => 12
  | .txAckLow => 13
  | .txAckHigh => 14
  | .txAckVerify => 15
  | .rxStartLow => 16
  | .rxStartHigh => 17
  | .rxDebounce => 18
  | .rxHeaderInitLow => 19
  | .rxHeaderInitHigh => 20
  | .rxHeaderDestLow => 21
  | .rxHeaderDestHigh => 22
  | .rxEomLow => 23
  | .rxEomHigh => 24
  | .rxAckLow => 25
  | .rxAckVerify => 26
  | .rxAckFinish => 27
  | .rxDataLow => 28
  | .rxDataHigh => 29

/-- `Tx*`: the codes 2 to 15 (R109). -/
def PState.isTx (p : PState) : Bool := decide (2 ≤ stateCode p) && decide (stateCode p ≤ 15)

/-- `Rx*`: the codes 16 to 29 (R109). -/
def PState.isRx (p : PState) : Bool := decide (16 ≤ stateCode p)

/-- The code of an edge, the values of ARM_EDGE (R35, R110). -/
def edgeCode : Edge → Nat
  | .none => 0
  | .rising => 1
  | .falling => 2

/-- The number of a register (R52). -/
def regNumber : Reg → Nat
  | .state => 0x00
  | .laddr => 0x01
  | .gpioOut => 0x02
  | .armEdge => 0x03
  | .armTv => 0x04
  | .armTmo => 0x05
  | .rxBuf _ => 0x10
  | .rxBit => 0x11
  | .rxByte => 0x12
  | .rxEom => 0x13
  | .rxBnack => 0x14
  | .rxLow => 0x15
  | .rxDbc => 0x16
  | .txBuf _ => 0x20
  | .txBit => 0x21
  | .txByte => 0x22
  | .txLen => 0x23
  | .txResends => 0x24
  | .txAck => 0x25
  | .txPi => 0x26

/-- The value a register holds, as the unsigned number of its bits (R12, R48). -/
def State.readReg (s : State) : Reg → Nat
  | .state => stateCode s.state
  | .laddr => s.laddr.toNat
  | .gpioOut => s.gpioOut.toNat
  | .armEdge => edgeCode s.armEdge
  | .armTv => s.armTv.toNat
  | .armTmo => s.armTmo.toNat
  | .rxBuf k => (memRead s.rx.bb.buf k).toNat
  | .rxBit => s.rx.bb.bit.toNat
  | .rxByte => s.rx.bb.byte.toNat
  | .rxEom => s.rx.eom.toNat
  | .rxBnack => s.rx.bnack.toNat
  | .rxLow => s.rx.low.toNat
  | .rxDbc => s.rx.dbc.toNat
  | .txBuf k => (memRead s.tx.bb.buf k).toNat
  | .txBit => s.tx.bb.bit.toNat
  | .txByte => s.tx.bb.byte.toNat
  | .txLen => s.tx.len.toNat
  | .txResends => s.tx.resends.toNat
  | .txAck => s.tx.ack.toNat
  | .txPi => s.tx.pi.toNat

/-- The width of a register in bits (R52). -/
def regWidth : Reg → Nat
  | .state => 5
  | .laddr => 8
  | .gpioOut => 1
  | .armEdge => 2
  | .armTv => 1
  | .armTmo => 24
  | .rxBuf _ => 8
  | .rxBit => 3
  | .rxByte => 5
  | .rxEom => 1
  | .rxBnack => 1
  | .rxLow => 24
  | .rxDbc => 2
  | .txBuf _ => 8
  | .txBit => 3
  | .txByte => 5
  | .txLen => 5
  | .txResends => 3
  | .txAck => 1
  | .txPi => 1

/-- The legal values of a register (R52). -/
def regLegal (r : Reg) (v : Nat) : Bool :=
  match r with
  | .state => decide (v < nStates)
  | .laddr => decide (v ≤ 15) || decide (v = unregAddr)
  | .armEdge => decide (v ≤ 2)
  | .rxByte => decide (v ≤ maxLen)
  | .rxDbc => decide (v ≤ debCutoff)
  | .txByte => decide (v ≤ maxLen)
  | .txLen => decide (v ≤ maxLen)
  | .txResends => decide (v ≤ maxResends)
  | .gpioOut | .armTv | .armTmo | .rxBuf _ | .rxBit | .rxEom | .rxBnack | .rxLow | .txBuf _ | .txBit | .txAck
  | .txPi => decide (v < 2 ^ regWidth r)

/-- The value of a register after reset (R391). -/
def regReset : Reg → Nat
  | .laddr => 255
  | .gpioOut => 1
  | .state | .armEdge | .armTv | .armTmo | .rxBuf _ | .rxBit | .rxByte | .rxEom | .rxBnack | .rxLow | .rxDbc
  | .txBuf _ | .txBit | .txByte | .txLen | .txResends | .txAck | .txPi => 0

/-- The registers of the receive context (R30). -/
def Reg.isRxCtx : Reg → Bool
  | .rxBuf _ | .rxBit | .rxByte | .rxEom | .rxBnack | .rxLow | .rxDbc => true
  | .state | .laddr | .gpioOut | .armEdge | .armTv | .armTmo | .txBuf _ | .txBit | .txByte | .txLen | .txResends
  | .txAck | .txPi => false

/-- The registers of the transmit context (R30). -/
def Reg.isTxCtx : Reg → Bool
  | .txBuf _ | .txBit | .txByte | .txLen | .txResends | .txAck | .txPi => true
  | .state | .laddr | .gpioOut | .armEdge | .armTv | .armTmo | .rxBuf _ | .rxBit | .rxByte | .rxEom | .rxBnack
  | .rxLow | .rxDbc => false

end Sys2Proof.Machine
end

