-- ==== Sys2Proof/Machine/Ops.lean ====
section
/-! DEFINITION. The shared operations of the meanings: the abort, the analogue of taking an exception (60_exceptions.md
R350 to R362), the phases of a received and of a transmitted bit, reset of any state, and the fetch of the next input.
There is no return from an abort (R362), so there is no such operation. -/

namespace Sys2Proof.Machine

/-! ### Aborts -/

/-- `raise Abort(cause)` (R350): enter Idle. Nothing is saved; the cause is a ghost value (R359; log entry 7). -/
def raiseAbort (cause : AbortCause) (s : State) : State := enter .idle none { s with abortCause := some cause }

/-! ### Receiving a bit -/

/-- The end of the low phase of a header or data bit (R277): an invalid low aborts before anything is written (R354);
else the bit is stored at the cursor and its low is kept. -/
def receiveBitLow (next : PState) (t : Tick) (s : State) : State :=
  if classifyLow s.cfg t = .invalid then raiseAbort .bitLowInvalid s
  else
    enter next none (s.mapRx (fun rx => { rx with bb := rx.bb.setBit (classBit (classifyLow s.cfg t)), low := t }))

/-- The end of the low phase of an EOM bit (R280): the bit goes to RX_EOM, not to the buffer. -/
def receiveEomLow (t : Tick) (s : State) : State :=
  if classifyLow s.cfg t = .invalid then raiseAbort .bitLowInvalid s
  else enter .rxEomHigh none (s.mapRx (fun rx => { rx with eom := classBit (classifyLow s.cfg t), low := t }))

/-- The end of the high phase of a header or data bit (R281 to R283): the total must fit the class of the low, or the
frame is aborted before the cursor moves (R355); then the cursor advances, and `last` or `more` follows as the bit index
has or has not reached `stop`. -/
def receiveBitHigh (stop : BitVec 3) (last more : PState) (t : Tick) (s : State) : State :=
  if isValidTotal s.cfg (dataSymbol s.rx.bb.getBit) s.rx.low t then
    enter (if s.rx.bb.incBit.bit = stop then last else more) none (s.mapRx (fun rx => { rx with bb := rx.bb.incBit }))
  else raiseAbort .bitTotalInvalid s

/-- The end of the high phase of an EOM bit (R284). -/
def receiveEomHigh (t : Tick) (s : State) : State :=
  if isValidTotal s.cfg (dataSymbol s.rx.eom) s.rx.low t then enter .rxAckLow none s
  else raiseAbort .bitTotalInvalid s

/-! ### Transmitting a bit -/

/-- The end of the high phase of a transmitted bit (R294, R296, R298): the cursor advances, and `last` or `more` follows
as the bit index has or has not reached `stop`. -/
def transmitBitHigh (stop : BitVec 3) (last more : PState) (line : Level) (s : State) : State :=
  enter (if s.tx.bb.incBit.bit = stop then last else more) (some line)
    (s.mapTx (fun tx => { tx with bb := tx.bb.incBit }))

/-- A completed or failed transmission: the frame is no longer pending and the notification is raised (R303). -/
def finishSend (n : Notif) (line : Level) (s : State) : State :=
  enter .idle (some line) ((s.mapTx (fun tx => { tx with len := 0, resends := 0 })).emit n)

/-! ### Debounce filter and reset -/

/-- `DBF.RESET` (R203). -/
def debounceReset (s : State) : State := s.mapRx (fun rx => { rx with dbc := 0 })

/-- The reset of R390 applied to any state: LADDR becomes 255, then the writes of the Disabled entry. Its drive and its
disarm are reset values, not outputs, so nothing is produced. The count of free values goes on (log entry 8). -/
def applyReset (s : State) : State :=
  { (enter .disabled none { s with laddr := 255 }) with
    out := noOut, selResult := none, abortCause := none, refusedMark := none }

/-! ### Refusing and fetching an input -/

/-- An input that is refused has no effect on the block: the step only leaves the mark (R108, R117, R374; log entry 4). -/
def refuseInput (why : RefusedInput) (s : State) : State := s.beginStep.markRefused why

/-- The next input operation and the state without it (R16, R80). -/
def fetchInput (s : State) : Option (Input × State) :=
  match s.inputs with
  | [] => none
  | x :: rest => some (x, { s with inputs := rest })

/-- With no input operation there is nothing to process and the block waits unchanged (R365; log entry 2). -/
def waitForInput (s : State) : State := s

/-- The next input operation put in front of the stream (log entry 11). -/
def putInput (x : Input) (s : State) : State := { s with inputs := x :: s.inputs }

end Sys2Proof.Machine
end

