-- ==== Sys2Proof/Machine/BufferSelectors.lean ====
section
/-! DEFINITION. The Bit Transfer Buffer selectors (R113) issued as operations of their own: the operation of 40_bit_buffer.md
on the named instance, its result on the result port (log entry 3). No other register is written. That every operation
runs on either instance, also where the block's own rules use one of them only, is a DESIGN CHOICE (log entry 23). -/

namespace Sys2Proof.Machine

/-- BB.RESET (R141). -/
def execBbReset (b : BufSel) (s : State) : Host.Outcome State Fault Refusal :=
  .next (s.beginStep.withBuffer b (s.buffer b).reset)

/-- BB.CLEAR (R142). -/
def execBbClear (b : BufSel) (s : State) : Host.Outcome State Fault Refusal :=
  .next (s.beginStep.withBuffer b (s.buffer b).clear)

/-- BB.GET_BIT (R143). -/
def execBbGetBit (b : BufSel) (s : State) : Host.Outcome State Fault Refusal :=
  .next (s.beginStep.giveResult (.bit (s.buffer b).getBit))

/-- BB.SET_BIT (R144). The block itself uses it on BB_rx only (R36, R42); that it also writes TX_BUF when BB_tx is named
is a DESIGN CHOICE (log entry 23). -/
def execBbSetBit (b : BufSel) (v : Bool) (s : State) : Host.Outcome State Fault Refusal :=
  .next (s.beginStep.withBuffer b ((s.buffer b).setBit v))

/-- BB.INC_BIT (R145). -/
def execBbIncBit (b : BufSel) (s : State) : Host.Outcome State Fault Refusal :=
  .next (s.beginStep.withBuffer b (s.buffer b).incBit)

/-- BB.IS_EOM (R146), used by the block on BB_tx only; on BB_rx a DESIGN CHOICE (log entry 23). -/
def execBbIsEom (b : BufSel) (len : BitVec 5) (s : State) : Host.Outcome State Fault Refusal :=
  .next (s.beginStep.giveResult (.bit ((s.buffer b).isEom len)))

/-- BB.LOAD (R147). Its lengths are 1 to 16; with 0 the rule's loop writes nothing, and for a longer one R147 states no
result: the instance's 16 bytes are a free value and the cursor is kept (DESIGN CHOICE, log entry 8). The block itself
uses it on BB_tx only (R147, R36, R42); that it also writes RX_BUF when BB_rx is named is a DESIGN CHOICE (log entry
23). -/
def execBbLoad (b : BufSel) (len : BitVec 5) (data : List Byte) (s : State) : Host.Outcome State Fault Refusal :=
  .next
    (if len.toNat ≤ maxLen then s.beginStep.withBuffer b ((s.buffer b).load len.toNat data)
    else (s.beginStep.withBuffer b ((s.buffer b).load maxLen (freeBytes s.freeDraws))).drawFree)

/-- BB.SNAPSHOT (R148), used by the block on BB_rx only; on BB_tx a DESIGN CHOICE (log entry 23). -/
def execBbSnapshot (b : BufSel) (s : State) : Host.Outcome State Fault Refusal :=
  .next (s.beginStep.giveResult (.snapshot (s.buffer b).snapshot.1 (s.buffer b).snapshot.2))

end Sys2Proof.Machine
end

