-- ==== Sys2Proof/Machine/Control.lean ====
section
/-! DEFINITION. The four commands (45_control.md R320 to R323). -/

namespace Sys2Proof.Machine

/-- CMD_ENABLE (R320): enters Idle from Disabled; no effect in any other state. -/
def execCmdEnable (s : State) : Host.Outcome State Fault Refusal :=
  .next (if s.state = .disabled then enter .idle none s.beginStep else s.beginStep)

/-- CMD_DISABLE (R321): enters Disabled from every state, Disabled included. -/
def execCmdDisable (s : State) : Host.Outcome State Fault Refusal := .next (enter .disabled none s.beginStep)

/-- CMD_SET_ADDR (R322): a legal address is stored; any other is rejected and changes nothing. -/
def execCmdSetAddr (addr : BitVec 8) (s : State) : Host.Outcome State Fault Refusal :=
  .next (if legalAddr addr then { s.beginStep with laddr := addr }.reply .ok else s.beginStep.reply .rejected)

/-- The state in which an accepted frame is pending (R323): the bytes are loaded, the length set, no resend counted. -/
def acceptFrame (len : BitVec 5) (data : List Byte) (s : State) : State :=
  (s.mapTx (fun tx => { tx with bb := tx.bb.load len.toNat data, len := len, resends := 0 })).reply .accepted

/-- CMD_SUBMIT (R323): DISABLED, INVALID and BUSY are tested in this order (D33); an accepted frame starts at once in Idle
and is deferred elsewhere (R324). -/
def execCmdSubmit (len : BitVec 5) (data : List Byte) (s : State) : Host.Outcome State Fault Refusal :=
  .next
    (if s.state = .disabled then s.beginStep.reply .disabled
    else if len = 0 ∨ len.toNat > maxLen then s.beginStep.reply .invalid
    else if s.tx.len ≠ 0 then s.beginStep.reply .busy
    else if s.state = .idle then enter .txFreeTime none (acceptFrame len data s.beginStep)
    else acceptFrame len data s.beginStep)

end Sys2Proof.Machine
end

