-- ==== Sys2Proof/Machine/DebounceSelectors.lean ====
section
/-! DEFINITION. The Debounce Filter selectors (R115) issued as operations of their own (log entry 3). Only RX_DBC is
written. -/

namespace Sys2Proof.Machine

/-- DBF.CLASSIFY (R201). -/
def execDbfClassify (t : Tick) (s : State) : Host.Outcome State Fault Refusal :=
  .next (s.beginStep.giveResult (.startClass (classifyStart s.cfg t)))

/-- DBF.QUIET (R202). -/
def execDbfQuiet (s : State) : Host.Outcome State Fault Refusal :=
  .next ((s.beginStep.mapRx (fun rx => { rx with dbc := quietCount s.cfg rx.dbc })).giveResult
    (.ticks (quietPeriod s.cfg s.rx.dbc)))

/-- DBF.RESET (R203). -/
def execDbfReset (s : State) : Host.Outcome State Fault Refusal := .next (debounceReset s.beginStep)

end Sys2Proof.Machine
end

