-- ==== Sys2Proof/Machine/Events.lean ====
section
/-! DEFINITION. The two bus events (44_state_events.md): EV_CAPTURE dispatched on STATE to R273 to R285, EV_TIMEOUT to R290
to R308. -/

namespace Sys2Proof.Machine

/-! ### Edge captures -/

/-- R275: a start-bit low that ended. -/
def captureRxStartLow (t : Tick) (s : State) : State :=
  match classifyStart s.cfg t with
  | .validStart => enter .rxStartHigh none ((debounceReset s).mapRx (fun rx => { rx with low := t }))
  | .glitch => enter .rxDebounce none s
  | .abort => raiseAbort .startLowInvalid (debounceReset s)

/-- R276: the falling edge that ends the start bit. -/
def captureRxStartHigh (t : Tick) (s : State) : State :=
  if isValidTotal s.cfg .start s.rx.low t then enter .rxHeaderInitLow none s
  else raiseAbort .startTotalInvalid s

/-- R274: the collision in the free time; the pending frame is deferred. -/
def captureTxFreeTime (s : State) : State := enter .rxStartLow none (s.mapTx resetTxCursor)

/-- The transition of a capture the block has armed (R270, R273 to R285). A state in which no edge is ever armed has no
rule and ignores the event (R286; log entry 9). -/
def captureIn (p : PState) (t : Tick) (s : State) : State :=
  match p with
  | .idle => enter .rxStartLow none s
  | .txFreeTime => captureTxFreeTime s
  | .rxStartLow => captureRxStartLow t s
  | .rxStartHigh => captureRxStartHigh t s
  | .rxHeaderInitLow => receiveBitLow .rxHeaderInitHigh t s
  | .rxHeaderInitHigh => receiveBitHigh 4 .rxHeaderDestLow .rxHeaderInitLow t s
  | .rxHeaderDestLow => receiveBitLow .rxHeaderDestHigh t s
  | .rxHeaderDestHigh => receiveBitHigh 0 .rxEomLow .rxHeaderDestLow t s
  | .rxEomLow => receiveEomLow t s
  | .rxEomHigh => receiveEomHigh t s
  | .rxAckFinish => enter .rxDataLow none s
  | .rxDataLow => receiveBitLow .rxDataHigh t s
  | .rxDataHigh => receiveBitHigh 0 .rxEomLow .rxDataLow t s
  | .disabled | .txStartLow | .txStartHigh | .txHeaderInitLow | .txHeaderInitHigh | .txHeaderDestLow
  | .txHeaderDestHigh | .txDataLow | .txDataHigh | .txEomLow | .txEomHigh | .txAckLow | .txAckHigh | .txAckVerify
  | .rxDebounce | .rxAckLow | .rxAckVerify => s

/-- A capture the collaborator could not have delivered: a timeout is armed and expired before the edge (R374). -/
def isLateCapture (t : Tick) (s : State) : Bool := s.armTv && decide (t.toNat > s.armTmo.toNat)

/-- EV_CAPTURE (R270): ignored with no edge armed (R272), refused when it comes after its timeout (R374), else the
transition of the state. -/
def execEvCapture (elapsed : Tick) (s : State) : Host.Outcome State Fault Refusal :=
  if s.armEdge = .none then .next s.beginStep
  else if isLateCapture elapsed s then .next (refuseInput .lateCapture s)
  else .next (captureIn s.state elapsed s.beginStep)

/-! ### Timeouts -/

/-- R303: the end of the ACK bit of a transmitted byte. -/
def timeoutTxAckVerify (line : Level) (s : State) : State :=
  if s.tx.ack then
    (if s.tx.bb.isEom s.tx.len then finishSend .sendOk line s else enter .txDataLow (some line) s)
  else if s.tx.resends.toNat < maxResends then
    enter .txFreeTime (some line) (s.mapTx (fun tx => { tx with resends := tx.resends + 1 }))
  else finishSend .sendFailed line s

/-- R306. -/
def timeoutRxAckVerify (line : Level) (s : State) : State :=
  if s.rx.bnack then raiseAbort .bcastNak s else enter .rxAckFinish (some line) s

/-- R307. -/
def timeoutRxAckFinish (line : Level) (s : State) : State :=
  if isFinalByte s.rx then enter .idle (some line) s else raiseAbort .rxTimeout s

/-- The transition of a timeout the block has armed (R271, R290 to R308). Disabled and Idle arm none and ignore it
(R309; log entry 9). -/
def timeoutIn (p : PState) (line : Level) (s : State) : State :=
  match p with
  | .disabled => s
  | .idle => s
  | .txFreeTime => enter .txStartLow (some line) s
  | .txStartLow => enter .txStartHigh (some line) s
  | .txStartHigh => enter .txHeaderInitLow (some line) s
  | .txHeaderInitLow => enter .txHeaderInitHigh (some line) s
  | .txHeaderInitHigh => transmitBitHigh 4 .txHeaderDestLow .txHeaderInitLow line s
  | .txHeaderDestLow => enter .txHeaderDestHigh (some line) s
  | .txHeaderDestHigh => transmitBitHigh 0 .txEomLow .txHeaderDestLow line s
  | .txDataLow => enter .txDataHigh (some line) s
  | .txDataHigh => transmitBitHigh 0 .txEomLow .txDataLow line s
  | .txEomLow => enter .txEomHigh (some line) s
  | .txEomHigh => enter .txAckLow (some line) s
  | .txAckLow => enter .txAckHigh (some line) s
  | .txAckHigh => enter .txAckVerify (some line) s
  | .txAckVerify => timeoutTxAckVerify line s
  | .rxStartLow => raiseAbort .rxTimeout (debounceReset s)
  | .rxStartHigh => raiseAbort .rxTimeout s
  | .rxDebounce => enter .idle (some line) s
  | .rxHeaderInitLow => raiseAbort .rxTimeout s
  | .rxHeaderInitHigh => raiseAbort .rxTimeout s
  | .rxHeaderDestLow => raiseAbort .rxTimeout s
  | .rxHeaderDestHigh => raiseAbort .rxTimeout s
  | .rxEomLow => raiseAbort .rxTimeout s
  | .rxEomHigh => raiseAbort .rxTimeout s
  | .rxAckLow => enter .rxAckVerify (some line) s
  | .rxAckVerify => timeoutRxAckVerify line s
  | .rxAckFinish => timeoutRxAckFinish line s
  | .rxDataLow => raiseAbort .rxTimeout s
  | .rxDataHigh => raiseAbort .rxTimeout s

/-- EV_TIMEOUT (R271): ignored with no timeout armed (R272), else the transition of the state. -/
def execEvTimeout (line : Level) (s : State) : Host.Outcome State Fault Refusal :=
  if s.armTv then .next (timeoutIn s.state line s.beginStep) else .next s.beginStep

end Sys2Proof.Machine
end

