-- ==== Sys2Proof/Machine/TimingSelectors.lean ====
section
/-! DEFINITION. The Timing Policy selectors (R114) issued as operations of their own: pure functions of the configuration,
their result on the result port (log entry 3). No register is written. -/

namespace Sys2Proof.Machine

/-- TP.IS_VALID_LOW (R171). -/
def execTpIsValidLow (sym : Symbol) (t : Tick) (s : State) : Host.Outcome State Fault Refusal :=
  .next (s.beginStep.giveResult (.bit (isValidLow s.cfg sym t)))

/-- TP.IS_VALID_TOTAL (R172). -/
def execTpIsValidTotal (sym : Symbol) (low high : Tick) (s : State) : Host.Outcome State Fault Refusal :=
  .next (s.beginStep.giveResult (.bit (isValidTotal s.cfg sym low high)))

/-- TP.LOW_DURATION (R173). -/
def execTpLowDuration (sym : Symbol) (s : State) : Host.Outcome State Fault Refusal :=
  .next (s.beginStep.giveResult (.ticks (lowDuration s.cfg sym)))

/-- TP.HIGH_DURATION (R174). -/
def execTpHighDuration (sym : Symbol) (s : State) : Host.Outcome State Fault Refusal :=
  .next (s.beginStep.giveResult (.ticks (highDuration s.cfg sym)))

/-- TP.CLASSIFY (R175). -/
def execTpClassify (t : Tick) (s : State) : Host.Outcome State Fault Refusal :=
  .next (s.beginStep.giveResult (.bitClass (classifyLow s.cfg t)))

/-- TP.CAP_LOW (R176). -/
def execTpCapLow (sym : Symbol) (s : State) : Host.Outcome State Fault Refusal :=
  .next (s.beginStep.giveResult (.ticks (capLow s.cfg sym)))

/-- TP.CAP_HIGH (R177). -/
def execTpCapHigh (sym : Symbol) (s : State) : Host.Outcome State Fault Refusal :=
  .next (s.beginStep.giveResult (.ticks (capHigh s.cfg sym)))

/-- TP.FREE_TIME (R178). -/
def execTpFreeTime (tier : Tier) (s : State) : Host.Outcome State Fault Refusal :=
  .next (s.beginStep.giveResult (.ticks (freeTime s.cfg tier)))

end Sys2Proof.Machine
end

