-- ==== Sys2Proof/Machine/Dispatch.lean ====
section
/-! DEFINITION. The meaning of every operation: one arm per constructor of `Instr`. -/

namespace Sys2Proof.Machine

def exec (i : Instr) (s : State) : Host.Outcome State Fault Refusal :=
  match i with
  | .evCapture elapsed => Sys2Proof.Machine.execEvCapture elapsed s
  | .evTimeout line => Sys2Proof.Machine.execEvTimeout line s
  | .cmdEnable => Sys2Proof.Machine.execCmdEnable s
  | .cmdDisable => Sys2Proof.Machine.execCmdDisable s
  | .cmdSetAddr addr => Sys2Proof.Machine.execCmdSetAddr addr s
  | .cmdSubmit len data => Sys2Proof.Machine.execCmdSubmit len data s
  | .bbReset b => Sys2Proof.Machine.execBbReset b s
  | .bbClear b => Sys2Proof.Machine.execBbClear b s
  | .bbGetBit b => Sys2Proof.Machine.execBbGetBit b s
  | .bbSetBit b v => Sys2Proof.Machine.execBbSetBit b v s
  | .bbIncBit b => Sys2Proof.Machine.execBbIncBit b s
  | .bbIsEom b len => Sys2Proof.Machine.execBbIsEom b len s
  | .bbLoad b len data => Sys2Proof.Machine.execBbLoad b len data s
  | .bbSnapshot b => Sys2Proof.Machine.execBbSnapshot b s
  | .tpIsValidLow sym t => Sys2Proof.Machine.execTpIsValidLow sym t s
  | .tpIsValidTotal sym low high => Sys2Proof.Machine.execTpIsValidTotal sym low high s
  | .tpLowDuration sym => Sys2Proof.Machine.execTpLowDuration sym s
  | .tpHighDuration sym => Sys2Proof.Machine.execTpHighDuration sym s
  | .tpClassify t => Sys2Proof.Machine.execTpClassify t s
  | .tpCapLow sym => Sys2Proof.Machine.execTpCapLow sym s
  | .tpCapHigh sym => Sys2Proof.Machine.execTpCapHigh sym s
  | .tpFreeTime tier => Sys2Proof.Machine.execTpFreeTime tier s
  | .dbfClassify t => Sys2Proof.Machine.execDbfClassify t s
  | .dbfQuiet => Sys2Proof.Machine.execDbfQuiet s
  | .dbfReset => Sys2Proof.Machine.execDbfReset s

end Sys2Proof.Machine
end

