-- ==== Sys2Proof/Machine/Step.lean ====
section
/-! DEFINITION. One step: the next input operation is taken from the stream and processed (R16, R80). -/

namespace Sys2Proof.Machine

/-- One step of the block. A configuration that fails R11 has no runs (U3). With no input waiting the block waits; a word
that spells no operation is refused by a mark and has no effect (R108). -/
def step (s : State) : Host.Outcome State Fault Refusal :=
  if cfgWf s.cfg then
    match fetchInput s with
    | none => .next (waitForInput s)
    | some (x, s') =>
      match decode x with
      | .ok i => exec i s'
      | .error e => .next (refuseInput (.encoding e) s')
  else .refused .illFormedConfig

/-- The state whose next input operation is a table row's word, every operand port at 0. Nothing but the stream's front
changes, and nothing else is needed for the very next step to run it (log entry 11). A BB3 word runs on BB_rx (log entry
24). -/
def State.withFetchWord (s : State) (nbits w : Nat) : State := putInput (tableInput nbits w) s

end Sys2Proof.Machine
end

