-- ==== Sys2Proof/Machine/Outputs.lean ====
section
/-! DEFINITION. The encodings of the outputs (30_encoding.md R104, R110 to R112, R115; 60_exceptions.md R351) and their order
within a step (R81). -/

namespace Sys2Proof.Machine

/-- The arm command word {EDGE[26:25], TV[24], TMO[23:0]} (R110). -/
def armWord (edge : Edge) (tmo : Option Tick) : BitVec 27 :=
  BitVec.ofNat 2 (edgeCode edge) ++ BitVec.ofBool tmo.isSome ++ tmo.getD 0

/-- The 2-bit code of the notification of a step (R111). -/
def notifCode : Option Notif → BitVec 2
  | none => 0
  | some .sendOk => 1
  | some .sendFailed => 2
  | some (.rxFrame _ _) => 3

/-- RX_LEN, which RX_FRAME carries beside its code (R111). No other notification carries one: none, not a value. -/
def notifLen : Option Notif → Option (BitVec 5)
  | some (.rxFrame len _) => some len
  | some .sendOk => none
  | some .sendFailed => none
  | none => none

/-- RX_DATA[0..15], which RX_FRAME carries beside its code (R111); no other notification carries them. -/
def notifData : Option Notif → Option (List Byte)
  | some (.rxFrame _ bytes) => some bytes
  | some .sendOk => none
  | some .sendFailed => none
  | none => none

/-- The code of a command's result: 2 bits for CMD_SUBMIT, 1 bit for CMD_SET_ADDR (R112). -/
def resultCode : Result → Nat
  | .accepted => 0
  | .busy => 1
  | .disabled => 2
  | .invalid => 3
  | .ok => 0
  | .rejected => 1

/-- The 2-bit class of TP.CLASSIFY (R104). -/
def bitClassCode : BitClass → BitVec 2
  | .data0 => 1
  | .data1 => 2
  | .invalid => 3

/-- The 2-bit class of DBF.CLASSIFY (R115). -/
def startClassCode : StartClass → BitVec 2
  | .validStart => 0
  | .glitch => 1
  | .abort => 2

/-- The number of an abort cause; 0 and 7 name none (R351). -/
def abortCode : AbortCause → BitVec 3
  | .startLowInvalid => 1
  | .startTotalInvalid => 2
  | .bitLowInvalid => 3
  | .bitTotalInvalid => 4
  | .rxTimeout => 5
  | .bcastNak => 6

/-- One output of a step. -/
inductive OutItem where
  | reply (r : Result)
  | emit (n : Notif)
  | drive (v : Level)
  | arm (edge : Edge) (tmo : Option Tick)
deriving DecidableEq, Repr

/-- The outputs of a step in the order they are issued: reply, emit, drive, arm (R81). -/
def outItems (o : Out) : List OutItem :=
  (o.result.map OutItem.reply).toList ++ (o.notify.map OutItem.emit).toList ++ (o.gpio.map OutItem.drive).toList ++
    (o.arm.map (fun a => OutItem.arm a.1 a.2)).toList

end Sys2Proof.Machine
end

