-- ==== Sys2Proof/Machine/Wire.lean ====
section
/-! DEFINITION. The CEC wire: symbols and frames as line phases (30_encoding.md R118 to R121), the pseudo-instructions of
R125, the nominal bus times of R407, and the level of the open-drain line (R377). No operation of the block calls these;
statements about whole frames are made with them. -/

namespace Sys2Proof.Machine

/-! ### Bits of a frame -/

/-- The eight bits of a byte in wire order, most significant first (R72). -/
def byteBits (v : Byte) : List Bool := (List.range 8).map (fun i => wireBit v (BitVec.ofNat 3 i))

/-- The nine bits the initiator sends of byte `k` of a frame: its bits, then EOM, 1 for the last byte (R71, R121). -/
def byteSlots (bytes : List Byte) (k : Nat) : List Bool :=
  byteBits (bytes.getD k 0) ++ [decide (k + 1 = bytes.length)]

/-- The number of bit slots of a frame: one start bit, then ten for each byte (R121). -/
def frameSlots (len : Nat) : Nat := 1 + 10 * len

/-! ### Phases the initiator drives -/

/-- What one step puts on the wire: the level driven, if any, and the timeout armed. -/
abbrev Phase := Option Level × Option Tick

/-- The two phases of a symbol: low for LOW_DURATION, released for HIGH_DURATION (R118, R119). -/
def symbolPhases (c : Cfg) (sym : Symbol) : List Phase :=
  [(some pulledLow, some (lowDuration c sym)), (some released, some (highDuration c sym))]

/-- The three phases of the initiator's ACK bit: a data-1 low, released until the sample, then the rest of the bit period
with nothing driven (R120, R179). -/
def ackPhases (c : Cfg) : List Phase :=
  [(some pulledLow, some (toTick (lowNom c .data1))), (some released, some (toTick (sample c - lowNom c .data1))),
    (none, some (toTick (bitNom c - sample c)))]

/-- The phases of byte `k` of a frame (R121). -/
def bytePhases (c : Cfg) (bytes : List Byte) (k : Nat) : List Phase :=
  (byteSlots bytes k).flatMap (fun b => symbolPhases c (dataSymbol b)) ++ ackPhases c

/-- The phases of a frame: the start bit, then every byte in order (R71, R121). -/
def framePhases (c : Cfg) (bytes : List Byte) : List Phase :=
  symbolPhases c .start ++ (List.range bytes.length).flatMap (bytePhases c bytes)

/-! ### Pseudo-instructions (R125) -/

/-- `timeout*N`. -/
def opTimeouts (n : Nat) : List Instr := List.replicate n (.evTimeout released)

/-- `rxstart`: the falling edge seen in Idle, the start-bit low, the start-bit high. -/
def opRxStart (c : Cfg) : List Instr :=
  [.evCapture 0, .evCapture (lowDuration c .start), .evCapture (highDuration c .start)]

/-- `rxbit b`. -/
def opRxBit (c : Cfg) (b : Bool) : List Instr :=
  [.evCapture (lowDuration c (dataSymbol b)), .evCapture (highDuration c (dataSymbol b))]

/-- `rxbyte V, E`. -/
def opRxByte (c : Cfg) (v : Byte) (e : Bool) : List Instr := (byteBits v ++ [e]).flatMap (opRxBit c)

/-- `rxackn L`: the ACK of a byte that is not the last. -/
def opRxAckN (c : Cfg) (line : Level) : List Instr :=
  [.evTimeout line, .evTimeout released, .evCapture (highDuration c .data0)]

/-- `rxackf L`: the ACK of the last byte. -/
def opRxAckF (line : Level) : List Instr := [.evTimeout line, .evTimeout released, .evTimeout released]

/-- `txbyte`. -/
def opTxByte : List Instr := opTimeouts 16

/-- `txeomack L`. -/
def opTxEomAck (line : Level) : List Instr := opTimeouts 3 ++ [.evTimeout line]

/-! ### Nominal bus times (R407) -/

/-- One transmit attempt of `n` bytes after a free time of `tier`, in ticks. -/
def attemptTime (c : Cfg) (tier : Tier) (n : Nat) : Int :=
  freeTimeInt c tier + lowNom c .start + highNom c .start + 10 * n * bitNom c

/-- One received frame of `n` bytes from the falling edge of its start bit, in ticks. -/
def frameTime (c : Cfg) (n : Nat) : Int := lowNom c .start + highNom c .start + 10 * n * bitNom c

/-! ### The line -/

/-- The bus level on an open-drain line: low if and only if at least one device pulls low (R377). -/
def busLevel (own : Level) (others : List Level) : Level := own && others.all id

end Sys2Proof.Machine
end

