-- ==== Sys2Proof/Safety.lean ====
section
/-! DEFINITION. What a good state and a safe run are: the invariants of 10_state.md R52 and R53 and 43_state_entry.md R254,
the collaborator contract of 60_exceptions.md R372 to R378, and runs of operations with what they produce. -/

namespace Sys2Proof.Machine

/-! ### Invariants of every step -/

/-- The states in which the block may hold the line low (R53 (e), R254). -/
def mayHoldLow : PState → Bool
  | .txStartLow | .txHeaderInitLow | .txHeaderDestLow | .txDataLow | .txEomLow | .txAckLow | .rxAckLow | .rxAckVerify =>
    true
  | .disabled | .idle | .txFreeTime | .txStartHigh | .txHeaderInitHigh | .txHeaderDestHigh | .txDataHigh | .txEomHigh
  | .txAckHigh | .txAckVerify | .rxStartLow | .rxStartHigh | .rxDebounce | .rxHeaderInitLow | .rxHeaderInitHigh
  | .rxHeaderDestLow | .rxHeaderDestHigh | .rxEomLow | .rxEomHigh | .rxAckFinish | .rxDataLow | .rxDataHigh => false

/-- The edge armed in a state; RxAckFinish arms by the frame and is not asked here (R223). -/
def stateEdge : PState → Edge
  | .idle | .txFreeTime | .rxStartHigh | .rxHeaderInitHigh | .rxHeaderDestHigh | .rxEomHigh | .rxDataHigh => .falling
  | .rxStartLow | .rxHeaderInitLow | .rxHeaderDestLow | .rxEomLow | .rxDataLow => .rising
  | .disabled | .txStartLow | .txStartHigh | .txHeaderInitLow | .txHeaderInitHigh | .txHeaderDestLow
  | .txHeaderDestHigh | .txDataLow | .txDataHigh | .txEomLow | .txEomHigh | .txAckLow | .txAckHigh | .txAckVerify
  | .rxDebounce | .rxAckLow | .rxAckVerify | .rxAckFinish => .none

/-- A timeout is armed in every state but Disabled and Idle (R223, R309). -/
def stateTimeout (p : PState) : Bool := decide (p ≠ .disabled) && decide (p ≠ .idle)

/-- Both frame buffers are in canonical form. -/
def buffersWf (s : State) : Prop := Memory.wf s.rx.bb.buf = true ∧ Memory.wf s.tx.bb.buf = true

/-- Every register holds a legal value (R52, R53 (d)). -/
def registersLegal (s : State) : Prop := ∀ r : Reg, regLegal r (s.readReg r) = true

/-- The arm shadow is the one the state's entry leaves (R35, R223). -/
def armMatches (s : State) : Prop :=
  s.armTv = stateTimeout s.state ∧ (s.armTv = false → s.armTmo = 0) ∧
    (s.state ≠ .rxAckFinish → s.armEdge = stateEdge s.state) ∧ (s.state = .rxAckFinish → s.armEdge ≠ .rising)

/-- What every step keeps, whatever the operation: canonical buffers, legal registers (R52), R53 (a) and (b), the states
in which the line may be low (R53 (e)), and the arm shadow (R53 (f), R223). -/
def BaseInv (s : State) : Prop :=
  buffersWf s ∧ registersLegal s ∧ (s.state.isTx = true → s.tx.len ≠ 0) ∧ (s.state = .idle → s.tx.len = 0) ∧
    (s.gpioOut = pulledLow → mayHoldLow s.state = true) ∧ armMatches s

/-! ### Invariants of every input operation -/

/-- The receive cursor and flags in a state: where in the frame the block is (R140, R76, R86). -/
def rxPlace : PState → RxCtx → Prop
  | .rxHeaderInitLow, rx | .rxHeaderInitHigh, rx => rx.bb.byte = 0 ∧ rx.bb.bit.toNat < 4 ∧ rx.eom = false
  | .rxHeaderDestLow, rx | .rxHeaderDestHigh, rx => rx.bb.byte = 0 ∧ 4 ≤ rx.bb.bit.toNat ∧ rx.eom = false
  | .rxDataLow, rx | .rxDataHigh, rx => 1 ≤ rx.bb.byte.toNat ∧ rx.bb.byte.toNat < maxLen ∧ rx.eom = false
  | .rxEomLow, rx => rx.bb.bit = 0 ∧ 1 ≤ rx.bb.byte.toNat ∧ rx.bb.byte.toNat ≤ maxLen ∧ rx.eom = false
  | .rxEomHigh, rx | .rxAckLow, rx | .rxAckVerify, rx | .rxAckFinish, rx =>
    rx.bb.bit = 0 ∧ 1 ≤ rx.bb.byte.toNat ∧ rx.bb.byte.toNat ≤ maxLen
  | .disabled, rx | .idle, rx | .txFreeTime, rx | .txStartLow, rx | .txStartHigh, rx | .txHeaderInitLow, rx
  | .txHeaderInitHigh, rx | .txHeaderDestLow, rx | .txHeaderDestHigh, rx | .txDataLow, rx | .txDataHigh, rx
  | .txEomLow, rx | .txEomHigh, rx | .txAckLow, rx | .txAckHigh, rx | .txAckVerify, rx | .rxStartLow, rx
  | .rxDebounce, rx => rx.bb.bit = 0 ∧ rx.bb.byte = 0 ∧ rx.eom = false ∧ rx.low = 0
  | .rxStartHigh, rx => rx.bb.bit = 0 ∧ rx.bb.byte = 0 ∧ rx.eom = false

/-- The transmit cursor in a state: which bit of the frame the block sends (R140, R76). -/
def txPlace : PState → TxCtx → Prop
  | .txFreeTime, _ => True
  | .txHeaderInitLow, tx | .txHeaderInitHigh, tx => tx.bb.byte = 0 ∧ tx.bb.bit.toNat < 4
  | .txHeaderDestLow, tx | .txHeaderDestHigh, tx => tx.bb.byte = 0 ∧ 4 ≤ tx.bb.bit.toNat
  | .txDataLow, tx | .txDataHigh, tx => 1 ≤ tx.bb.byte.toNat ∧ tx.bb.byte.toNat < tx.len.toNat
  | .txEomLow, tx | .txEomHigh, tx | .txAckLow, tx | .txAckHigh, tx | .txAckVerify, tx =>
    tx.bb.bit = 0 ∧ 1 ≤ tx.bb.byte.toNat ∧ tx.bb.byte.toNat ≤ tx.len.toNat
  | .disabled, tx | .idle, tx | .txStartLow, tx | .txStartHigh, tx | .rxStartLow, tx | .rxStartHigh, tx
  | .rxDebounce, tx | .rxHeaderInitLow, tx | .rxHeaderInitHigh, tx | .rxHeaderDestLow, tx | .rxHeaderDestHigh, tx
  | .rxEomLow, tx | .rxEomHigh, tx | .rxAckLow, tx | .rxAckVerify, tx | .rxAckFinish, tx | .rxDataLow, tx
  | .rxDataHigh, tx => tx.bb.bit = 0 ∧ tx.bb.byte = 0

/-- What every input operation keeps: BaseInv; both contexts 0 in Disabled (R53 (c)); the cursors in their places; the
edge armed in RxAckFinish as the frame goes on or ends (R251); the broadcast-NAK flag only in RxAckVerify of a broadcast;
the line low in the ACK slot only of a frame that is not a broadcast (R53 (e)). -/
def ProtoInv (s : State) : Prop :=
  BaseInv s ∧ (s.state = .disabled → s.rx = State.reset.rx ∧ s.tx = State.reset.tx) ∧
    rxPlace s.state s.rx ∧ txPlace s.state s.tx ∧
    (s.state = .rxAckFinish → (s.armEdge = .none ↔ isFinalByte s.rx = true)) ∧
    (s.rx.bnack = true → s.state = .rxAckVerify ∧ isBroadcast s.rx.bb = true) ∧
    (s.gpioOut = pulledLow → s.state = .rxAckLow ∨ s.state = .rxAckVerify → isBroadcast s.rx.bb = false)

/-! ### Frames of a step -/

/-- Every register is unchanged but those of a list. -/
def sameRegsBut (written : List Reg) (s t : State) : Prop := ∀ r, r ∉ written → t.readReg r = s.readReg r

/-- Every register is unchanged. -/
def sameRegs (s t : State) : Prop := ∀ r, t.readReg r = s.readReg r

/-- The configuration, the rest of the input stream and the refused mark are unchanged, and no free value is drawn. -/
def sameRun (s t : State) : Prop :=
  t.cfg = s.cfg ∧ t.inputs = s.inputs ∧ t.refusedMark = s.refusedMark ∧ t.freeDraws = s.freeDraws

/-- The step produced nothing. -/
def quiet (t : State) : Prop := t.out = noOut ∧ t.selResult = none ∧ t.abortCause = none

/-- A receive or a transmit buffer's sixteen byte registers. -/
def bufRegs : BufSel → List Reg
  | .rx => (List.finRange 16).map Reg.rxBuf
  | .tx => (List.finRange 16).map Reg.txBuf

/-- The two cursor registers of an instance. -/
def cursorRegs : BufSel → List Reg
  | .rx => [.rxBit, .rxByte]
  | .tx => [.txBit, .txByte]

/-- The registers every entry action may write besides those its rule names: STATE and the arm shadow (R220, R221). -/
def entryRegs : List Reg := [.state, .armEdge, .armTv, .armTmo]

/-! ### What an entry produces -/

/-- The step drove and armed as an entry's row of R223 says, and GPIO_OUT and the arm shadow hold it (R34, R35). -/
def producedEntry (s u : State) (drive : Option Level) (edge : Edge) (tmo : Option Tick) : Prop :=
  u.out.gpio = drive ∧ u.out.arm = some (edge, tmo) ∧ u.gpioOut = drive.getD s.gpioOut ∧ u.armEdge = edge ∧
    u.armTv = tmo.isSome ∧ u.armTmo = tmo.getD 0

/-- The effect of `enter(Idle)` from the registers of `s` (R225): the receive context but RX_DBC and the buffer bytes is
reset, the transmit cursor is reset; with a frame pending TxFreeTime is entered in the same step. -/
def enteredIdle (s u : State) : Prop :=
  u.rx = ⟨⟨s.rx.bb.buf, 0, 0⟩, false, false, 0, s.rx.dbc⟩ ∧ u.tx = { s.tx with bb := ⟨s.tx.bb.buf, 0, 0⟩ } ∧
    u.laddr = s.laddr ∧
    (s.tx.len = 0 → u.state = .idle ∧ producedEntry s u (some released) .falling none) ∧
    (s.tx.len ≠ 0 → u.state = .txFreeTime ∧
      producedEntry s u (some released) .falling (some (freeTime s.cfg (selectTier s.tx.resends s.tx.pi))))

/-- The effect of `raise Abort(cause)` from the registers of `s` (R350): `enter(Idle)` and nothing else; no reply, no
notification. -/
def aborted (cause : AbortCause) (s u : State) : Prop :=
  u.abortCause = some cause ∧ enteredIdle s u ∧ u.out.notify = none ∧ u.out.result = none ∧ u.selResult = none

/-- An entry that is no abort, replies nothing and raises no notification. -/
def plainEntry (u : State) : Prop :=
  u.abortCause = none ∧ u.out.notify = none ∧ u.out.result = none ∧ u.selResult = none

/-- The longest high of a valid data bit, CAP_DATA_HIGH as R179 writes it. -/
def longestDataHigh (c : Cfg) : Tick :=
  toTick (max (maxTotal c .data0 + tol c - (minLow c .data0 - tol c)) (maxTotal c .data1 + tol c - (minLow c .data1 - tol c)))

/-- The drive column of R223, for the registers of `s`. -/
def tableDrive (s : State) : PState → Option Level
  | .disabled | .idle | .txFreeTime | .txStartHigh | .txHeaderInitHigh | .txHeaderDestHigh | .txDataHigh | .txEomHigh
  | .txAckHigh | .rxAckFinish => some released
  | .txStartLow | .txHeaderInitLow | .txHeaderDestLow | .txDataLow | .txEomLow | .txAckLow => some pulledLow
  | .rxAckLow =>
    if s.rx.bb.dest.toNat ≠ bcastAddr ∧ s.rx.bb.dest.toNat = s.laddr.toNat then some pulledLow else none
  | .txAckVerify | .rxStartLow | .rxStartHigh | .rxDebounce | .rxHeaderInitLow | .rxHeaderInitHigh | .rxHeaderDestLow
  | .rxHeaderDestHigh | .rxEomLow | .rxEomHigh | .rxAckVerify | .rxDataLow | .rxDataHigh => none

/-- The arm column of R223, for the registers of `s`; the constants of R179 are written out. -/
def tableArm (s : State) : PState → Edge × Option Tick
  | .disabled => (.none, none)
  | .idle => (.falling, none)
  | .txFreeTime => (.falling, some (freeTime s.cfg (selectTier s.tx.resends s.tx.pi)))
  | .txStartLow => (.none, some (toTick (lowNom s.cfg .start)))
  | .txStartHigh => (.none, some (toTick (highNom s.cfg .start)))
  | .txHeaderInitLow | .txHeaderDestLow | .txDataLow =>
    (.none, some (lowDuration s.cfg (dataSymbol s.tx.bb.getBit)))
  | .txHeaderInitHigh | .txHeaderDestHigh | .txDataHigh =>
    (.none, some (highDuration s.cfg (dataSymbol s.tx.bb.getBit)))
  | .txEomLow => (.none, some (lowDuration s.cfg (dataSymbol (s.tx.bb.isEom s.tx.len))))
  | .txEomHigh => (.none, some (highDuration s.cfg (dataSymbol (s.tx.bb.isEom s.tx.len))))
  | .txAckLow => (.none, some (toTick (lowNom s.cfg .data1)))
  | .txAckHigh => (.none, some (toTick (sample s.cfg - lowNom s.cfg .data1)))
  | .txAckVerify => (.none, some (toTick (bitNom s.cfg - sample s.cfg)))
  | .rxStartLow => (.rising, some (toTick (maxLow s.cfg .start + tol s.cfg)))
  | .rxStartHigh =>
    (.falling, some (toTick ((maxTotal s.cfg .start + tol s.cfg) - (minLow s.cfg .start - tol s.cfg))))
  | .rxDebounce => (.none, some (quietPeriod s.cfg s.rx.dbc))
  | .rxHeaderInitLow | .rxHeaderDestLow | .rxEomLow | .rxDataLow =>
    (.rising, some (toTick (max (maxLow s.cfg .data0) (maxLow s.cfg .data1) + tol s.cfg)))
  | .rxHeaderInitHigh | .rxHeaderDestHigh | .rxEomHigh | .rxDataHigh => (.falling, some (longestDataHigh s.cfg))
  | .rxAckLow => (.none, some (toTick (sample s.cfg)))
  | .rxAckVerify => (.none, some (toTick (lowNom s.cfg .data0 - sample s.cfg)))
  | .rxAckFinish =>
    if s.rx.eom = true ∨ maxLen ≤ s.rx.bb.byte.toNat then (.none, some (toTick (highNom s.cfg .data0)))
    else (.falling, some (longestDataHigh s.cfg))

/-- The EV_CAPTURE column of R310: the states an accepted capture may lead to. -/
def captureTargets : PState → List PState
  | .idle => [.rxStartLow]
  | .txFreeTime => [.rxStartLow]
  | .rxStartLow => [.rxStartHigh, .rxDebounce, .idle]
  | .rxStartHigh => [.rxHeaderInitLow, .idle]
  | .rxHeaderInitLow => [.rxHeaderInitHigh, .idle]
  | .rxHeaderInitHigh => [.rxHeaderDestLow, .rxHeaderInitLow, .idle]
  | .rxHeaderDestLow => [.rxHeaderDestHigh, .idle]
  | .rxHeaderDestHigh => [.rxEomLow, .rxHeaderDestLow, .idle]
  | .rxEomLow => [.rxEomHigh, .idle]
  | .rxEomHigh => [.rxAckLow, .idle]
  | .rxAckFinish => [.rxDataLow]
  | .rxDataLow => [.rxDataHigh, .idle]
  | .rxDataHigh => [.rxEomLow, .rxDataLow, .idle]
  | .disabled | .txStartLow | .txStartHigh | .txHeaderInitLow | .txHeaderInitHigh | .txHeaderDestLow
  | .txHeaderDestHigh | .txDataLow | .txDataHigh | .txEomLow | .txEomHigh | .txAckLow | .txAckHigh | .txAckVerify
  | .rxDebounce | .rxAckLow | .rxAckVerify => []

/-- The EV_TIMEOUT column of R310. -/
def timeoutTargets : PState → List PState
  | .disabled | .idle => []
  | .txFreeTime => [.txStartLow]
  | .txStartLow => [.txStartHigh]
  | .txStartHigh => [.txHeaderInitLow]
  | .txHeaderInitLow => [.txHeaderInitHigh]
  | .txHeaderInitHigh => [.txHeaderDestLow, .txHeaderInitLow]
  | .txHeaderDestLow => [.txHeaderDestHigh]
  | .txHeaderDestHigh => [.txEomLow, .txHeaderDestLow]
  | .txDataLow => [.txDataHigh]
  | .txDataHigh => [.txEomLow, .txDataLow]
  | .txEomLow => [.txEomHigh]
  | .txEomHigh => [.txAckLow]
  | .txAckLow => [.txAckHigh]
  | .txAckHigh => [.txAckVerify]
  | .txAckVerify => [.txDataLow, .idle, .txFreeTime]
  | .rxAckLow => [.rxAckVerify]
  | .rxAckVerify => [.rxAckFinish, .idle]
  | .rxStartLow | .rxStartHigh | .rxDebounce | .rxHeaderInitLow | .rxHeaderInitHigh | .rxHeaderDestLow
  | .rxHeaderDestHigh | .rxEomLow | .rxEomHigh | .rxAckFinish | .rxDataLow | .rxDataHigh => [.idle]

/-- A state reached by a step is one of the targets of its table cell. Where the cell says Idle and a frame is pending, and
only there, it is TxFreeTime, which the Idle entry chains into (R225). -/
def reachesOneOf (targets : List PState) (u : State) : Prop :=
  ∃ p ∈ targets, u.state = if p = .idle ∧ u.tx.len ≠ 0 then .txFreeTime else p

/-! ### The collaborator contract -/

/-- An event the collaborator may deliver in a state (R374, R375): an armed edge no later than the armed timeout, or an
armed timeout. Commands are not bound by it. -/
def contractAdmits (s : State) : Instr → Bool
  | .evCapture t => decide (s.armEdge ≠ .none) && !isLateCapture t s
  | .evTimeout _ => s.armTv
  | .cmdEnable | .cmdDisable | .cmdSetAddr _ | .cmdSubmit _ _ => true
  | .bbReset _ | .bbClear _ | .bbGetBit _ | .bbSetBit _ _ | .bbIncBit _ | .bbIsEom _ _ | .bbLoad _ _ _ | .bbSnapshot _
  | .tpIsValidLow _ _ | .tpIsValidTotal _ _ _ | .tpLowDuration _ | .tpHighDuration _ | .tpClassify _ | .tpCapLow _
  | .tpCapHigh _ | .tpFreeTime _ | .dbfClassify _ | .dbfQuiet | .dbfReset => true

/-- A run with no refused input so far: the runs claims are stated over (R108). -/
def unrefused (s : State) : Prop := s.refusedMark = none

/-- A stream that holds input operations only, no sub-block selectors. -/
def onlyInputWords (xs : List Input) : Prop := ∀ x ∈ xs, ∃ w, x.word = .evt32 w

/-! ### Runs of operations -/

/-- The states after each of a list of operations in turn, up to one that gives no next state. -/
def trail : List Instr → State → List State
  | [], _ => []
  | i :: is, s =>
    match exec i s with
    | .next t => t :: trail is t
    | .fault _ => []
    | .refused _ => []

/-- The state after a list of operations, if every one gives a next state. -/
def after : List Instr → State → Option State
  | [], s => some s
  | i :: is, s =>
    match exec i s with
    | .next t => after is t
    | .fault _ => none
    | .refused _ => none

/-- The notifications raised along a list of operations, in order. -/
def notifs (is : List Instr) (s : State) : List Notif := (trail is s).filterMap (fun t => t.out.notify)

/-- The wire phase a step produced: what it drove and the timeout it armed. -/
def phaseOf (s : State) : Phase := (s.out.gpio, s.out.arm.bind (fun a => a.2))

/-! ### Frames on the receive side -/

/-- One byte of a frame as a follower sees it: its value, the measured low and high of its eight bits and its EOM bit, the
line at its ACK sample, and the time from the release of the ACK to the next byte's falling edge. -/
structure SeenByte where
  value : Byte
  slots : List (Tick × Tick)
  line : Level
  gap : Tick
deriving DecidableEq, Repr

/-- The two captures of one measured bit. -/
def slotOps (p : Tick × Tick) : List Instr := [.evCapture p.1, .evCapture p.2]

/-- The operations of one seen byte: its nine bits, the ACK sample, the end of the hold, and the next byte's falling edge
or, after the last byte, the end of the bit. -/
def seenByteOps (last : Bool) (b : SeenByte) : List Instr :=
  b.slots.flatMap slotOps ++ [.evTimeout b.line, .evTimeout released] ++
    [if last then .evTimeout released else .evCapture b.gap]

/-- The operations of the bytes of a seen frame in order. -/
def seenBytesOps : List SeenByte → List Instr
  | [] => []
  | b :: rest => seenByteOps rest.isEmpty b ++ seenBytesOps rest

/-- The operations of a seen frame: the falling edge, the start bit's low and high, the bytes. -/
def seenFrameOps (startEdge startLow startHigh : Tick) (frame : List SeenByte) : List Instr :=
  [.evCapture startEdge, .evCapture startLow, .evCapture startHigh] ++ seenBytesOps frame

/-- A measured low and high are a valid bit of value `b` (R119). -/
def slotValid (c : Cfg) (b : Bool) (p : Tick × Tick) : Bool :=
  decide (classifyLow c p.1 = if b then .data1 else .data0) && isValidTotal c (dataSymbol b) p.1 p.2

/-- A seen byte is valid: nine valid bits, EOM `last`; the next byte's falling edge comes before its timeout; and the line
is not low at the sample of a broadcast (R357). -/
def seenByteValid (c : Cfg) (broadcast last : Bool) (b : SeenByte) : Bool :=
  decide (b.slots.length = 9) && ((byteBits b.value ++ [last]).zip b.slots).all (fun x => slotValid c x.1 x.2) &&
    decide (b.gap.toNat ≤ (capHigh c .data0).toNat) && !(broadcast && !b.line)

/-- The bytes of a seen frame are valid. -/
def seenBytesValid (c : Cfg) (broadcast : Bool) : List SeenByte → Bool
  | [] => true
  | b :: rest => seenByteValid c broadcast rest.isEmpty b && seenBytesValid c broadcast rest

/-- The destination of a seen frame, bits 3:0 of its first byte (R73). -/
def seenDest (frame : List SeenByte) : BitVec 4 := ((frame.map SeenByte.value).getD 0 0).extractLsb' 0 4

/-- Sixteen bytes: those of a frame, then 0 (R111). -/
def padded (bytes : List Byte) : List Byte := (List.range 16).map (fun k => bytes.getD k 0)

/-! ### Submissions and their completion -/

/-- 1 while a frame is pending, else 0 (R324). -/
def pendingCount (s : State) : Nat := if s.tx.len = 0 then 0 else 1

/-- 1 if the step accepted a submission, else 0. -/
def acceptedCount (u : State) : Nat := if u.out.result = some .accepted then 1 else 0

/-- 1 if the step raised SEND_OK or SEND_FAILED, else 0. -/
def signalledCount (u : State) : Nat :=
  if u.out.notify = some .sendOk ∨ u.out.notify = some .sendFailed then 1 else 0

/-- 1 if the operation is a CMD_DISABLE that drops a pending frame, else 0. -/
def droppedCount (i : Instr) (s : State) : Nat := if i = .cmdDisable ∧ s.tx.len ≠ 0 then 1 else 0

/-- Along a list of operations: submissions accepted, completions signalled, frames dropped by a disable. -/
def ledger : List Instr → State → Nat × Nat × Nat
  | [], _ => (0, 0, 0)
  | i :: is, s =>
    match exec i s with
    | .next t =>
      (acceptedCount t + (ledger is t).1, signalledCount t + (ledger is t).2.1, droppedCount i s + (ledger is t).2.2)
    | .fault _ => (0, 0, 0)
    | .refused _ => (0, 0, 0)

/-! ### Glitches -/

/-- The operations of glitches: for each the falling edge, the end of the low, the end of the quiet period (R125, P5). -/
def glitchOps (gs : List (Tick × Tick × Level)) : List Instr :=
  gs.flatMap (fun g => [.evCapture g.1, .evCapture g.2.1, .evTimeout g.2.2])

/-- The quiet periods armed along a list of operations, in order. -/
def quietPeriods (is : List Instr) (s : State) : List Tick :=
  (trail is s).filterMap (fun u => if u.state = .rxDebounce then some u.armTmo else none)

/-! ### Moving bits between buffers -/

/-- `n` bits read from one buffer with GET_BIT and written to another with SET_BIT, both cursors advancing (R150). -/
def moveBits : Nat → BitBuffer → BitBuffer → BitBuffer × BitBuffer
  | 0, rx, tx => (rx, tx)
  | n + 1, rx, tx => moveBits n (rx.setBit tx.getBit).incBit tx.incBit

end Sys2Proof.Machine
end

