-- ==== Sys2Proof/Certificates/Slice0/Obligations.lean ====
section
/-! DEFINITION. The statements for the provers, from the numbered rules of spec/. Statements about an input operation read
its result from the state before it; where a statement needs a canonical buffer or another invariant, the invariant is a
premise and is itself stated (BaseInvariantKeptByEveryStep, ProtocolInvariantKeptByInputOperations). -/

open Sys2Proof Sys2Proof.Machine

/-! ### Encoding -/

/-- Decoding an encoded well-formed operation gives it back, for every operation and every operand value (30_encoding.md
R100 to R107, R113 to R116, R122). -/
def Obligations.DecodeOfEncodeIsIdentity : Prop :=
  ∀ i : Instr, WellFormed i = true → decode (encode i) = .ok i

/-- An input that decodes decodes to a well-formed operation whose encoding has the very same word: no word bit is dropped
(R100 to R107, R113 to R116). -/
def Obligations.EncodeOfDecodeIsSameWord : Prop :=
  ∀ (x : Input) (i : Instr), decode x = .ok i → WellFormed i = true ∧ (encode i).word = x.word

/-- Which 32-bit words are operations, and which: the words of R124, the data port beside CMD_SUBMIT. That a
missing line of the port reads 0 is the model's choice (log entry 13). -/
def Obligations.InputWordsAreThoseOfTheTable : Prop :=
  ∀ (w : BitVec 32) (p : Ports) (i : Instr),
    decode ⟨.evt32 w, p⟩ = .ok i ↔
      (∃ t : Tick, w.toNat = 0x10000000 + t.toNat ∧ i = .evCapture t) ∨
      (∃ l : Level, w.toNat = 0x20000000 + l.toNat ∧ i = .evTimeout l) ∨
      (w.toNat = 0x30000001 ∧ i = .cmdEnable) ∨
      (w.toNat = 0x30000000 ∧ i = .cmdDisable) ∨
      (∃ a : BitVec 8, w.toNat = 0x40000000 + a.toNat ∧ i = .cmdSetAddr a) ∨
      (∃ n : BitVec 5, w.toNat = 0x50000000 + n.toNat ∧ i = .cmdSubmit n (dataLines p))

/-- R108: exactly the words with a reserved OP or a reserved field not 0 are refused; the refusal is a mark, and the word
has no effect on the block. That the mark stands in State and the run goes on is the model's choice (log entry 4). -/
def Obligations.ReservedWordsAreRefused : Prop :=
  ∀ (w : BitVec 32) (p : Ports),
    ((∃ e, decode ⟨.evt32 w, p⟩ = .error e) ↔
      (w.toNat / 2 ^ 28 = 0 ∨ 6 ≤ w.toNat / 2 ^ 28) ∨
      (w.toNat / 2 ^ 28 = 1 ∧ w.toNat % 2 ^ 28 ≥ 2 ^ 24) ∨
      (w.toNat / 2 ^ 28 = 2 ∧ w.toNat % 2 ^ 28 ≥ 2) ∨
      (w.toNat / 2 ^ 28 = 3 ∧ w.toNat % 2 ^ 28 ≥ 2) ∨
      (w.toNat / 2 ^ 28 = 4 ∧ w.toNat % 2 ^ 28 ≥ 2 ^ 8) ∨
      (w.toNat / 2 ^ 28 = 5 ∧ w.toNat % 2 ^ 28 ≥ 2 ^ 5)) ∧
    ∀ (s : State) (rest : List Input) (e : DecodeError), cfgWf s.cfg = true → s.inputs = ⟨.evt32 w, p⟩ :: rest →
      decode ⟨.evt32 w, p⟩ = .error e →
        ∃ t, step s = .next t ∧ t.refusedMark.isSome = true ∧ sameRegs s t ∧ quiet t ∧ t.inputs = rest ∧ t.cfg = s.cfg

/-- The 2-bit number of a symbol (R104). -/
def Sys2Proof.symbolNumber : Symbol → Nat
  | .start => 0
  | .data0 => 1
  | .data1 => 2

/-- The 2-bit number of a free-time tier (R116). -/
def Sys2Proof.tierNumber : Tier → Nat
  | .resend => 0
  | .new => 1
  | .present => 2

/-- Which selectors are which of the nineteen sub-block operations: the tables of R113, R114 and R115, with the symbols of
R104 and the tiers of R116; and exactly the reserved values are refused (R117), as R108 refuses a word (the mark: log entry
4). That the operands stand on named ports is the model's choice (log entry 3), and that a missing line of the data port
reads 0 (log entry 13). -/
def Obligations.ReservedSelectorsAreRefused : Prop :=
  (∀ (op : BitVec 3) (p : Ports) (i : Instr),
    decode ⟨.bb3 op, p⟩ = .ok i ↔
      (op.toNat = 0 ∧ i = .bbReset p.sel) ∨ (op.toNat = 1 ∧ i = .bbClear p.sel) ∨
      (op.toNat = 2 ∧ i = .bbGetBit p.sel) ∨ (op.toNat = 3 ∧ i = .bbSetBit p.sel p.v) ∨
      (op.toNat = 4 ∧ i = .bbIncBit p.sel) ∨ (op.toNat = 5 ∧ i = .bbIsEom p.sel p.len) ∨
      (op.toNat = 6 ∧ i = .bbLoad p.sel p.len (dataLines p)) ∨ (op.toNat = 7 ∧ i = .bbSnapshot p.sel)) ∧
  (∀ (w : BitVec 5) (p : Ports) (i : Instr),
    decode ⟨.tp5 w, p⟩ = .ok i ↔
      (∃ sym, w.toNat = 4 * 0 + symbolNumber sym ∧ i = .tpIsValidLow sym p.t) ∨
      (∃ sym, w.toNat = 4 * 1 + symbolNumber sym ∧ i = .tpIsValidTotal sym p.low p.high) ∨
      (∃ sym, w.toNat = 4 * 2 + symbolNumber sym ∧ i = .tpLowDuration sym) ∨
      (∃ sym, w.toNat = 4 * 3 + symbolNumber sym ∧ i = .tpHighDuration sym) ∨
      (w.toNat = 4 * 4 ∧ i = .tpClassify p.t) ∨
      (∃ sym, w.toNat = 4 * 5 + symbolNumber sym ∧ i = .tpCapLow sym) ∨
      (∃ sym, w.toNat = 4 * 6 + symbolNumber sym ∧ i = .tpCapHigh sym) ∨
      (∃ tier, w.toNat = 4 * 7 + tierNumber tier ∧ i = .tpFreeTime tier)) ∧
  (∀ (op : BitVec 2) (p : Ports) (i : Instr),
    decode ⟨.dbf2 op, p⟩ = .ok i ↔
      (op.toNat = 0 ∧ i = .dbfClassify p.t) ∨ (op.toNat = 1 ∧ i = .dbfQuiet) ∨ (op.toNat = 2 ∧ i = .dbfReset)) ∧
  (∀ (op : BitVec 3) (p : Ports), ∃ i, decode ⟨.bb3 op, p⟩ = .ok i) ∧
  (∀ (w : BitVec 5) (p : Ports),
    (∃ e, decode ⟨.tp5 w, p⟩ = .error e) ↔
      (w.toNat / 4 = 4 ∧ w.toNat % 4 ≠ 0) ∨ (w.toNat / 4 ≠ 4 ∧ w.toNat % 4 = 3)) ∧
  (∀ (op : BitVec 2) (p : Ports), (∃ e, decode ⟨.dbf2 op, p⟩ = .error e) ↔ op.toNat = 3) ∧
  ∀ (s : State) (x : Input) (rest : List Input) (e : DecodeError), cfgWf s.cfg = true → s.inputs = x :: rest →
    decode x = .error e →
      ∃ t, step s = .next t ∧ t.refusedMark.isSome = true ∧ sameRegs s t ∧ quiet t ∧ t.inputs = rest ∧ t.cfg = s.cfg

/-- The mark of a refused input is kept for the whole run: no step removes or replaces it (R108; that it is a field of State
is the model's choice, log entry 4). -/
def Obligations.RefusedMarkIsKept : Prop :=
  ∀ (s t : State) (m : RefusedInput), step s = .next t → s.refusedMark = some m → t.refusedMark = some m

/-- A step runs the decoded operation: when the next input decodes, the step is the operation's meaning on the state whose
stream has lost that input. That the stream is a field of State is the model's choice (log entry 2). -/
def Obligations.StepRunsTheDecodedOperation : Prop :=
  ∀ (s : State) (x : Input) (rest : List Input) (i : Instr), cfgWf s.cfg = true → s.inputs = x :: rest →
    decode x = .ok i → step s = exec i { s with inputs := rest }

/-- A few words written out from the tables of R101 to R107 and R113 to R115 decode to what they stand for. -/
def Obligations.WordsWrittenOutDecode : Prop :=
  decode ⟨.evt32 0x10000E74, zeroPorts⟩ = .ok (.evCapture 3700) ∧
  decode ⟨.evt32 0x20000001, zeroPorts⟩ = .ok (.evTimeout released) ∧
  decode ⟨.evt32 0x400000FF, zeroPorts⟩ = .ok (.cmdSetAddr 255) ∧
  decode ⟨.bb3 0b011, { zeroPorts with sel := .tx, v := true }⟩ = .ok (.bbSetBit .tx true) ∧
  decode ⟨.tp5 0b11110, zeroPorts⟩ = .ok (.tpFreeTime .present) ∧
  decode ⟨.dbf2 0b10, zeroPorts⟩ = .ok .dbfReset

/-! ### Configuration and reset -/

/-- Every duration of R8 to R10 and R179 in µs, the values R11 (a) bounds: the constants of R8, the fields of R9, the free
times of R10 and the derived constants of R179, in the order of those rules. -/
def Sys2Proof.boundedUs (c : Cfg) : List Int :=
  ([2400, 100, 200, 100, 500] : List Int) ++
  ([c.startLowNomUs, c.startHighNomUs, c.startMinLowUs, c.startMaxLowUs, c.startMinTotalUs, c.startMaxTotalUs] : List Int) ++
  ([c.d0LowNomUs, c.d0HighNomUs, c.d0MinLowUs, c.d0MaxLowUs] : List Int) ++
  ([c.d1LowNomUs, c.d1HighNomUs, c.d1MinLowUs, c.d1MaxLowUs] : List Int) ++
  ([c.d0MinTotalUs, c.d0MaxTotalUs, c.d1MinTotalUs, c.d1MaxTotalUs, c.sampleUs] : List Int) ++
  ([2 * 2400, 4 * 2400, 6 * 2400] : List Int) ++
  ([(c.startMaxLowUs : Int) + 100, (c.startMaxTotalUs + 100 : Int) - (c.startMinLowUs - 100),
    max (c.d0MaxLowUs : Int) (c.d1MaxLowUs : Int) + 100,
    max ((c.d0MaxTotalUs + 100 : Int) - (c.d0MinLowUs - 100)) ((c.d1MaxTotalUs + 100 : Int) - (c.d1MinLowUs - 100))] :
    List Int) ++
  ([(c.d1LowNomUs : Int), (c.sampleUs : Int) - c.d1LowNomUs, 2400 - (c.sampleUs : Int), (c.sampleUs : Int),
    (c.d0LowNomUs : Int) - c.sampleUs, (c.d0HighNomUs : Int)] : List Int)

/-- R11 with R9's positive tick rate: what a well-formed configuration is, in µs and ticks; and the default profile is
well-formed. That a step answers any other configuration with a refusal of its own name is the model's choice (log entry
14), and so is that the positive rate of R9 is part of the test. -/
def Obligations.WellFormedConfigurations : Prop :=
  (∀ c : Cfg, cfgWf c = true ↔
    0 < c.ticksPerUs ∧ (∀ us ∈ boundedUs c, us * c.ticksPerUs < 2 ^ 24) ∧
    (c.d0LowNomUs + c.d0HighNomUs = 2400 ∧ c.d1LowNomUs + c.d1HighNomUs = 2400) ∧
    (c.d1LowNomUs < c.sampleUs ∧ c.sampleUs < c.d0LowNomUs ∧ c.d0LowNomUs < 2400) ∧
    c.d1MaxLowUs + 100 + 100 < c.d0MinLowUs ∧
    200 + 100 ≤ c.startMinLowUs ∧
    (c.startMinLowUs ≤ c.startLowNomUs ∧ c.startLowNomUs ≤ c.startMaxLowUs ∧
      c.startMinTotalUs ≤ c.startLowNomUs + c.startHighNomUs ∧ c.startLowNomUs + c.startHighNomUs ≤ c.startMaxTotalUs) ∧
    (c.d0MinLowUs ≤ c.d0LowNomUs ∧ c.d0LowNomUs ≤ c.d0MaxLowUs ∧
      c.d0MinTotalUs ≤ c.d0LowNomUs + c.d0HighNomUs ∧ c.d0LowNomUs + c.d0HighNomUs ≤ c.d0MaxTotalUs) ∧
    (c.d1MinLowUs ≤ c.d1LowNomUs ∧ c.d1LowNomUs ≤ c.d1MaxLowUs ∧
      c.d1MinTotalUs ≤ c.d1LowNomUs + c.d1HighNomUs ∧ c.d1LowNomUs + c.d1HighNomUs ≤ c.d1MaxTotalUs)) ∧
  (∀ s : State, cfgWf s.cfg = false → step s = .refused .illFormedConfig) ∧
  cfgWf defaultCfg = true

/-- R391: the value every register of R52 holds after reset. -/
def Obligations.ResetRegisterValues : Prop :=
  State.reset.readReg .laddr = 255 ∧ State.reset.readReg .gpioOut = 1 ∧
    ∀ r : Reg, r ≠ .laddr → r ≠ .gpioOut → State.reset.readReg r = 0

/-- The reset of R390 applied to any state gives the registers of State.reset, with nothing produced; the configuration,
the input stream and the count of free values are not state of the block. That no step performs a reset is the model's
choice (log entry 18), and so is that the count goes on (log entry 8). -/
def Obligations.ResetOfAnyState : Prop :=
  ∀ s : State, buffersWf s → applyReset s = { State.reset with cfg := s.cfg, inputs := s.inputs, freeDraws := s.freeDraws }

/-- R393: after a CMD_DISABLE of any state every register but LADDR holds its reset value and LADDR is kept; nothing is
notified. Reset gives the same registers and LADDR 255. -/
def Obligations.DisableLeavesResetButTheAddress : Prop :=
  ∀ s : State, buffersWf s →
    ∃ t, exec .cmdDisable s = .next t ∧ (∀ r : Reg, r ≠ .laddr → t.readReg r = State.reset.readReg r) ∧
      t.laddr = s.laddr ∧ t.out.notify = none ∧ (applyReset s).laddr = 255 ∧
      (∀ r : Reg, r ≠ .laddr → (applyReset s).readReg r = State.reset.readReg r) ∧ (applyReset s).out.notify = none

/-! ### Invariants -/

/-- Both invariants hold after reset. -/
def Obligations.InvariantsHoldAtReset : Prop := BaseInv State.reset ∧ ProtoInv State.reset

/-- Every step keeps the base invariant: canonical buffers, legal registers (R52), R53 (a), (b), (d), (f), the states in
which the line may be low (R53 (e)), and the arm shadow of R223. That a step may also be a wait, a selector of its own or a
refused input that leaves the mark is the model's choice (log entries 2, 3 and 4). -/
def Obligations.BaseInvariantKeptByEveryStep : Prop :=
  ∀ s t : State, BaseInv s → step s = .next t → BaseInv t

/-- Every input operation keeps the protocol invariant: R53 (a) to (f), the cursors in their places (R76, R140), the edge
of RxAckFinish (R251), the broadcast-NAK flag (R39). -/
def Obligations.ProtocolInvariantKeptByInputOperations : Prop :=
  ∀ (i : Instr) (s t : State), i.isInputOp = true → ProtoInv s → exec i s = .next t → ProtoInv t

/-- From a good state, over any stream of 32-bit words, reserved ones included, the block never stops and stays good: each
step consumes one word (R16, R80, R311 (a)). That the run goes on over a reserved word, which R108 only calls refused, is
the model's choice (log entry 4), and so are that the stream is a field of State and that the block waits once it is empty
(log entry 2). -/
def Obligations.StreamsOfInputWordsNeverStop : Prop :=
  ∀ (s : State) (k : Nat), cfgWf s.cfg = true → ProtoInv s → onlyInputWords s.inputs →
    ∃ t, Sys2Proof.core.run k s = .next t ∧ ProtoInv t ∧ t.inputs = s.inputs.drop k

/-- The state machine never addresses a buffer at the one-past-end position: in every state whose transitions read, write
or advance at a cursor, the byte index is below 16 (R76). -/
def Obligations.CursorsAddressBytesThatExist : Prop :=
  ∀ s : State, ProtoInv s →
    (s.state ∈ [PState.rxHeaderInitLow, .rxHeaderInitHigh, .rxHeaderDestLow, .rxHeaderDestHigh, .rxDataLow, .rxDataHigh] →
      s.rx.bb.byte.toNat < 16) ∧
    (s.state ∈ [PState.txStartHigh, .txHeaderInitLow, .txHeaderInitHigh, .txHeaderDestLow, .txHeaderDestHigh, .txDataLow,
      .txDataHigh] → s.tx.bb.byte.toNat < 16) ∧
    (s.state = .txAckVerify → s.tx.bb.isEom s.tx.len = false → s.tx.bb.byte.toNat < 16) ∧
    (s.state = .rxAckFinish → s.armEdge ≠ .none → s.rx.bb.byte.toNat < 16)

/-- The logical address is written by CMD_SET_ADDR alone, with a legal value (R33). -/
def Obligations.AddressWrittenOnlyBySetAddr : Prop :=
  ∀ (i : Instr) (s t : State), exec i s = .next t →
    t.laddr = s.laddr ∨ ∃ a, i = .cmdSetAddr a ∧ t.laddr = a ∧ (a.toNat ≤ 15 ∨ a.toNat = 255)

/-- While a frame is pending no input operation but CMD_DISABLE changes TX_BUF or TX_LEN, until the frame's completion is
signalled (R83, R42). -/
def Obligations.PendingFrameIsConstant : Prop :=
  ∀ (i : Instr) (s t : State), i.isInputOp = true → BaseInv s → exec i s = .next t → s.tx.len ≠ 0 → i ≠ .cmdDisable →
    (∀ k, memRead t.tx.bb.buf k = memRead s.tx.bb.buf k) ∧
    (t.tx.len = s.tx.len ∨ (t.tx.len = 0 ∧ (t.out.notify = some .sendOk ∨ t.out.notify = some .sendFailed)))

/-- R325 over runs: submissions accepted are as many as completions signalled, frames dropped by a disable and the frame
still pending, whatever input operations come. -/
def Obligations.EverySubmissionEndsOnce : Prop :=
  ∀ (is : List Instr) (s t : State), (∀ i ∈ is, i.isInputOp = true) → BaseInv s → after is s = some t →
    pendingCount s + (ledger is s).1 = (ledger is s).2.1 + (ledger is s).2.2 + pendingCount t

/-- The line is let go at once: from a state with the line low, any event leaves the state as it was or releases the line,
but for the sample of an ACK the block is giving (R254). -/
def Obligations.LineLowIsLetGo : Prop :=
  ∀ (i : Instr) (s t : State), i.isInputOp = true → ProtoInv s → exec i s = .next t → s.gpioOut = pulledLow →
    t.gpioOut = released ∨ t.state = s.state ∨ (s.state = .rxAckLow ∧ t.state = .rxAckVerify)

/-! ### Entry actions and transitions -/

/-- R223: the level driven and the arm command of every state's entry; the Idle entry with a frame pending drives and arms
as TxFreeTime. -/
def Obligations.EntriesDriveAndArmAsTheTable : Prop :=
  ∀ (p : PState) (line : Option Level) (s : State), s.out = noOut →
    ((p = .idle → s.tx.len = 0) →
      producedEntry s (enter p line s) (tableDrive s p) (tableArm s p).1 (tableArm s p).2) ∧
    (p = .idle → s.tx.len ≠ 0 →
      producedEntry s (enter p line s) (tableDrive s .txFreeTime) (tableArm s .txFreeTime).1 (tableArm s .txFreeTime).2)

/-- R272: an EV_CAPTURE with no edge armed and an EV_TIMEOUT with no timeout armed change no state and produce no output,
whatever their operands. -/
def Obligations.UnarmedEventsAreIgnored : Prop :=
  ∀ s : State,
    (s.armEdge = .none → ∀ t : Tick, ∃ u, exec (.evCapture t) s = .next u ∧ sameRegs s u ∧ sameRun s u ∧ quiet u) ∧
    (s.armTv = false → ∀ l : Level, ∃ u, exec (.evTimeout l) s = .next u ∧ sameRegs s u ∧ sameRun s u ∧ quiet u)

/-- An EV_CAPTURE later than its armed timeout is refused as R108 refuses a word: the mark, and no effect (R374). That the
unarmed case is tested first is the model's reading (log entry 5), and that the step answers next with the mark in State is
its choice (log entry 4). -/
def Obligations.LateCapturesAreRefused : Prop :=
  ∀ (s : State) (t : Tick), s.armEdge ≠ .none → s.armTv = true → s.armTmo.toNat < t.toNat →
    ∃ u, exec (.evCapture t) s = .next u ∧ u.refusedMark.isSome = true ∧ sameRegs s u ∧ quiet u ∧ u.cfg = s.cfg ∧
      u.inputs = s.inputs

/-- An event the collaborator may deliver leads to a successor the table of R310 names, TxFreeTime in place of Idle exactly
with a frame pending (R225); and each command leads from every state to the state, and replies the result, that the table of
R327 gives. -/
def Obligations.TransitionsFollowTheTable : Prop :=
  ∀ s : State, BaseInv s →
    (∀ t : Tick, contractAdmits s (.evCapture t) = true →
      ∃ u, exec (.evCapture t) s = .next u ∧ reachesOneOf (captureTargets s.state) u) ∧
    (∀ l : Level, contractAdmits s (.evTimeout l) = true →
      ∃ u, exec (.evTimeout l) s = .next u ∧ reachesOneOf (timeoutTargets s.state) u) ∧
    (ProtoInv s →
      ∃ u, exec .cmdEnable s = .next u ∧ u.out.result = none ∧
        u.state = if s.state = .disabled then .idle else s.state) ∧
    (∃ u, exec .cmdDisable s = .next u ∧ u.out.result = none ∧ u.state = .disabled ∧ u.tx.len = 0) ∧
    (∀ a : BitVec 8, ∃ u, exec (.cmdSetAddr a) s = .next u ∧ u.state = s.state ∧
      u.out.result = some (if a.toNat ≤ 15 ∨ a.toNat = 255 then .ok else .rejected)) ∧
    (∀ (n : BitVec 5) (d : List Byte), ∃ u, exec (.cmdSubmit n d) s = .next u ∧
      (s.state = .disabled → u.out.result = some .disabled ∧ u.state = .disabled) ∧
      (s.state ≠ .disabled → n.toNat = 0 ∨ 16 < n.toNat → u.out.result = some .invalid ∧ u.state = s.state) ∧
      (1 ≤ n.toNat → n.toNat ≤ 16 →
        (s.state = .idle → u.out.result = some .accepted ∧ u.state = .txFreeTime) ∧
        (s.state.isTx = true → u.out.result = some .busy ∧ u.state = s.state) ∧
        (s.state.isRx = true →
          u.out.result = some (if s.tx.len = 0 then .accepted else .busy) ∧ u.state = s.state)))

/-- R273 and R274: a falling edge in Idle starts the measurement of a start-bit low; in TxFreeTime it also defers the
pending frame, whose length, bytes and resend count are kept. -/
def Obligations.FallingEdgeStartsReception : Prop :=
  ∀ (s : State) (t : Tick), contractAdmits s (.evCapture t) = true →
    (s.state = .idle →
      ∃ u, exec (.evCapture t) s = .next u ∧ u.state = .rxStartLow ∧ u.rx = s.rx ∧ u.tx = { s.tx with pi := false } ∧
        u.laddr = s.laddr ∧ producedEntry s u none .rising (some (toTick (capStartLow s.cfg))) ∧ plainEntry u ∧
        sameRun s u) ∧
    (s.state = .txFreeTime →
      ∃ u, exec (.evCapture t) s = .next u ∧ u.state = .rxStartLow ∧ u.rx = s.rx ∧
        u.tx = { s.tx with bb := ⟨s.tx.bb.buf, 0, 0⟩, pi := false } ∧ u.laddr = s.laddr ∧
        producedEntry s u none .rising (some (toTick (capStartLow s.cfg))) ∧ plainEntry u ∧ sameRun s u)

/-- R275 and R276: the low of a start bit is a valid start, a glitch or an abort, as R201 classifies it; the total of the
start bit is valid or aborts. -/
def Obligations.StartBitIsValidated : Prop :=
  ∀ (s : State) (t : Tick), contractAdmits s (.evCapture t) = true →
    (s.state = .rxStartLow →
      ∃ u, exec (.evCapture t) s = .next u ∧ sameRun s u ∧
        (isValidLow s.cfg .start t = true →
          u.state = .rxStartHigh ∧ u.rx = { s.rx with dbc := 0, low := t } ∧ u.tx = s.tx ∧ u.laddr = s.laddr ∧
            producedEntry s u none .falling (some (toTick (capStartHigh s.cfg))) ∧ plainEntry u) ∧
        (isValidLow s.cfg .start t = false → tickInt t < debLimit s.cfg →
          u.state = .rxDebounce ∧ u.rx = { s.rx with dbc := quietCount s.cfg s.rx.dbc } ∧ u.tx = s.tx ∧
            u.laddr = s.laddr ∧ producedEntry s u none .none (some (quietPeriod s.cfg s.rx.dbc)) ∧ plainEntry u) ∧
        (isValidLow s.cfg .start t = false → debLimit s.cfg ≤ tickInt t →
          aborted .startLowInvalid { s with rx := { s.rx with dbc := 0 } } u)) ∧
    (s.state = .rxStartHigh →
      ∃ u, exec (.evCapture t) s = .next u ∧ sameRun s u ∧
        (isValidTotal s.cfg .start s.rx.low t = true →
          u.state = .rxHeaderInitLow ∧ u.rx = s.rx ∧ u.tx = s.tx ∧ u.laddr = s.laddr ∧
            producedEntry s u none .rising (some (toTick (capDataLow s.cfg))) ∧ plainEntry u) ∧
        (isValidTotal s.cfg .start s.rx.low t = false → aborted .startTotalInvalid s u))

/-- R277 to R279: the low of a header or data bit is classified; an invalid one aborts before anything is written, a valid
one is stored at the cursor and its low kept, and the high phase is awaited. -/
def Obligations.ReceivedBitIsStored : Prop :=
  ∀ (s : State) (t : Tick) (p : PState), contractAdmits s (.evCapture t) = true →
    (s.state, p) ∈ [(PState.rxHeaderInitLow, PState.rxHeaderInitHigh), (.rxHeaderDestLow, .rxHeaderDestHigh),
      (.rxDataLow, .rxDataHigh)] →
    ∃ u, exec (.evCapture t) s = .next u ∧ sameRun s u ∧
      (classifyLow s.cfg t = .invalid → aborted .bitLowInvalid s u) ∧
      (classifyLow s.cfg t ≠ .invalid →
        u.state = p ∧ u.rx = { s.rx with bb := s.rx.bb.setBit (decide (classifyLow s.cfg t = .data1)), low := t } ∧
          u.tx = s.tx ∧ u.laddr = s.laddr ∧ producedEntry s u none .falling (some (toTick (capDataHigh s.cfg))) ∧
          plainEntry u)

/-- R280 and R284: the low of an EOM bit goes to RX_EOM, not to the buffer, and does not move the cursor; its total is
checked against the class, and the ACK slot follows. -/
def Obligations.EomBitIsReceived : Prop :=
  ∀ (s : State) (t : Tick), contractAdmits s (.evCapture t) = true →
    (s.state = .rxEomLow →
      ∃ u, exec (.evCapture t) s = .next u ∧ sameRun s u ∧
        (classifyLow s.cfg t = .invalid → aborted .bitLowInvalid s u) ∧
        (classifyLow s.cfg t ≠ .invalid →
          u.state = .rxEomHigh ∧ u.rx = { s.rx with eom := decide (classifyLow s.cfg t = .data1), low := t } ∧
            u.tx = s.tx ∧ u.laddr = s.laddr ∧ producedEntry s u none .falling (some (toTick (capDataHigh s.cfg))) ∧
            plainEntry u)) ∧
    (s.state = .rxEomHigh →
      ∃ u, exec (.evCapture t) s = .next u ∧ sameRun s u ∧
        (isValidTotal s.cfg (dataSymbol s.rx.eom) s.rx.low t = false → aborted .bitTotalInvalid s u) ∧
        (isValidTotal s.cfg (dataSymbol s.rx.eom) s.rx.low t = true →
          u.state = .rxAckLow ∧ u.rx = s.rx ∧ u.tx = s.tx ∧ u.laddr = s.laddr ∧
            producedEntry s u (tableDrive s .rxAckLow) .none (some (toTick (sample s.cfg))) ∧ plainEntry u))

/-- R281 to R283: the total of a header or data bit is checked against the class of its low; a mismatch aborts before the
cursor moves; a match advances the cursor, and the state that follows is chosen by the new bit index. -/
def Obligations.ReceivedBitTotalIsChecked : Prop :=
  ∀ (s : State) (t : Tick) (stop : BitVec 3) (last more : PState), contractAdmits s (.evCapture t) = true →
    (s.state, stop, last, more) ∈ [(PState.rxHeaderInitHigh, (4 : BitVec 3), PState.rxHeaderDestLow, PState.rxHeaderInitLow),
      (.rxHeaderDestHigh, 0, .rxEomLow, .rxHeaderDestLow), (.rxDataHigh, 0, .rxEomLow, .rxDataLow)] →
    ∃ u, exec (.evCapture t) s = .next u ∧ sameRun s u ∧
      (isValidTotal s.cfg (dataSymbol s.rx.bb.getBit) s.rx.low t = false → aborted .bitTotalInvalid s u) ∧
      (isValidTotal s.cfg (dataSymbol s.rx.bb.getBit) s.rx.low t = true →
        u.state = (if s.rx.bb.incBit.bit = stop then last else more) ∧ u.rx = { s.rx with bb := s.rx.bb.incBit } ∧
          u.tx = s.tx ∧ u.laddr = s.laddr ∧ producedEntry s u none .rising (some (toTick (capDataLow s.cfg))) ∧
          plainEntry u)

/-- R285, R305, R306 and R307 with the entries R250 and R251: the ACK slot of a received byte. The line is sampled for the
broadcast-NAK flag; a NAKed broadcast aborts; otherwise the line is released and the frame ends, delivered if it is for
the device, or the next byte is awaited; the next byte's falling edge resumes reception, its absence aborts. -/
def Obligations.AckSlotOfReceivedByte : Prop :=
  ∀ s : State, s.armTv = true →
    (∀ l : Level, s.state = .rxAckLow →
      ∃ u, exec (.evTimeout l) s = .next u ∧ sameRun s u ∧ u.state = .rxAckVerify ∧
        u.rx = { s.rx with bnack := decide (s.rx.bb.dest.toNat = 15 ∧ l = pulledLow) } ∧ u.tx = s.tx ∧
        u.laddr = s.laddr ∧ producedEntry s u none .none (some (toTick (lowNom s.cfg .data0 - sample s.cfg))) ∧
        plainEntry u) ∧
    (∀ l : Level, s.state = .rxAckVerify →
      ∃ u, exec (.evTimeout l) s = .next u ∧ sameRun s u ∧
        (s.rx.bnack = true → aborted .bcastNak s u) ∧
        (s.rx.bnack = false →
          u.state = .rxAckFinish ∧ u.rx = s.rx ∧ u.tx = s.tx ∧ u.laddr = s.laddr ∧ u.abortCause = none ∧
          u.out.result = none ∧
          ((s.rx.eom = true ∨ 16 ≤ s.rx.bb.byte.toNat) →
            producedEntry s u (some released) .none (some (toTick (highNom s.cfg .data0))) ∧
            u.out.notify =
              if s.rx.bb.dest.toNat = s.laddr.toNat ∨ s.rx.bb.dest.toNat = 15 then
                some (.rxFrame s.rx.bb.byte s.rx.bb.snapshotBytes)
              else none) ∧
          (s.rx.eom = false → s.rx.bb.byte.toNat < 16 →
            producedEntry s u (some released) .falling (some (toTick (capDataHigh s.cfg))) ∧ u.out.notify = none))) ∧
    (∀ t : Tick, s.state = .rxAckFinish → contractAdmits s (.evCapture t) = true →
      ∃ u, exec (.evCapture t) s = .next u ∧ sameRun s u ∧ u.state = .rxDataLow ∧ u.rx = s.rx ∧ u.tx = s.tx ∧
        u.laddr = s.laddr ∧ producedEntry s u none .rising (some (toTick (capDataLow s.cfg))) ∧ plainEntry u) ∧
    (∀ l : Level, s.state = .rxAckFinish →
      ∃ u, exec (.evTimeout l) s = .next u ∧ sameRun s u ∧
        ((s.rx.eom = true ∨ 16 ≤ s.rx.bb.byte.toNat) → enteredIdle s u ∧ plainEntry u) ∧
        (s.rx.eom = false → s.rx.bb.byte.toNat < 16 → aborted .rxTimeout s u))

/-- R304 and R308: the quiet period ends in Idle with RX_DBC kept; a fallback timeout in an Rx timing state aborts with
RX_TIMEOUT, and in RxStartLow resets the glitch count first. -/
def Obligations.ReceiveTimeoutsReturnToIdle : Prop :=
  ∀ (s : State) (l : Level), s.armTv = true →
    (s.state = .rxDebounce →
      ∃ u, exec (.evTimeout l) s = .next u ∧ sameRun s u ∧ enteredIdle s u ∧ plainEntry u) ∧
    (s.state = .rxStartLow →
      ∃ u, exec (.evTimeout l) s = .next u ∧ sameRun s u ∧ aborted .rxTimeout { s with rx := { s.rx with dbc := 0 } } u) ∧
    (s.state ∈ [PState.rxStartHigh, .rxHeaderInitLow, .rxHeaderInitHigh, .rxHeaderDestLow, .rxHeaderDestHigh, .rxEomLow,
        .rxEomHigh, .rxDataLow, .rxDataHigh] →
      ∃ u, exec (.evTimeout l) s = .next u ∧ sameRun s u ∧ aborted .rxTimeout s u)

/-- R290 to R302: the timeouts that drive a frame out. Each enters its successor, whose entry drives and arms by its row of
R223 for the registers the transition leaves; only the high phase of a bit moves the cursor; the two special entries write
TX_PI and the cursor (R227) and TX_ACK (R239). The three phases of the ACK bit have the lengths of R179. -/
def Obligations.TransmitTimeoutsDriveTheFrame : Prop :=
  ∀ (s : State) (l : Level), s.armTv = true →
    (∀ p : PState, (s.state, p) ∈ [(PState.txStartLow, PState.txStartHigh), (.txStartHigh, .txHeaderInitLow),
        (.txHeaderInitLow, .txHeaderInitHigh), (.txHeaderDestLow, .txHeaderDestHigh), (.txDataLow, .txDataHigh),
        (.txEomLow, .txEomHigh)] →
      ∃ u, exec (.evTimeout l) s = .next u ∧ sameRun s u ∧ u.state = p ∧ u.rx = s.rx ∧ u.tx = s.tx ∧ u.laddr = s.laddr ∧
        producedEntry s u (tableDrive s p) (tableArm s p).1 (tableArm s p).2 ∧ plainEntry u) ∧
    (∀ (stop : BitVec 3) (last more p : PState),
      (s.state, stop, last, more) ∈ [(PState.txHeaderInitHigh, (4 : BitVec 3), PState.txHeaderDestLow, PState.txHeaderInitLow),
        (.txHeaderDestHigh, 0, .txEomLow, .txHeaderDestLow), (.txDataHigh, 0, .txEomLow, .txDataLow)] →
      p = (if s.tx.bb.incBit.bit = stop then last else more) →
      ∃ u, exec (.evTimeout l) s = .next u ∧ sameRun s u ∧ u.state = p ∧ u.rx = s.rx ∧
        u.tx = { s.tx with bb := s.tx.bb.incBit } ∧ u.laddr = s.laddr ∧
        producedEntry s u (some pulledLow) .none
          (tableArm { s with tx := { s.tx with bb := s.tx.bb.incBit } } p).2 ∧ plainEntry u) ∧
    (s.state = .txFreeTime →
      ∃ u, exec (.evTimeout l) s = .next u ∧ sameRun s u ∧ u.state = .txStartLow ∧ u.rx = s.rx ∧
        u.tx = { s.tx with bb := ⟨s.tx.bb.buf, 0, 0⟩, pi := true } ∧ u.laddr = s.laddr ∧
        producedEntry s u (some pulledLow) .none (some (toTick (lowNom s.cfg .start))) ∧ plainEntry u) ∧
    (s.state = .txEomHigh →
      ∃ u, exec (.evTimeout l) s = .next u ∧ sameRun s u ∧ u.state = .txAckLow ∧ u.rx = s.rx ∧ u.tx = s.tx ∧
        u.laddr = s.laddr ∧ producedEntry s u (some pulledLow) .none (some (toTick (lowNom s.cfg .data1))) ∧
        plainEntry u) ∧
    (s.state = .txAckLow →
      ∃ u, exec (.evTimeout l) s = .next u ∧ sameRun s u ∧ u.state = .txAckHigh ∧ u.rx = s.rx ∧ u.tx = s.tx ∧
        u.laddr = s.laddr ∧
        producedEntry s u (some released) .none (some (toTick (sample s.cfg - lowNom s.cfg .data1))) ∧ plainEntry u) ∧
    (s.state = .txAckHigh →
      ∃ u, exec (.evTimeout l) s = .next u ∧ sameRun s u ∧ u.state = .txAckVerify ∧ u.rx = s.rx ∧
        u.tx = { s.tx with ack := if s.tx.bb.dest.toNat = 15 then decide (l = released) else decide (l = pulledLow) } ∧
        u.laddr = s.laddr ∧ producedEntry s u none .none (some (toTick (bitNom s.cfg - sample s.cfg))) ∧ plainEntry u)

/-- R303: the end of the ACK bit of a transmitted byte, in its four cases: the next byte, SEND_OK, a resend from the free
time, SEND_FAILED after the fifth resend. -/
def Obligations.AckDecidesTheTransmission : Prop :=
  ∀ (s : State) (l : Level), s.armTv = true → s.state = .txAckVerify →
    ∃ u, exec (.evTimeout l) s = .next u ∧ sameRun s u ∧ u.abortCause = none ∧ u.out.result = none ∧ u.laddr = s.laddr ∧
      (s.tx.ack = true → s.tx.bb.isEom s.tx.len = false →
        u.state = .txDataLow ∧ u.rx = s.rx ∧ u.tx = s.tx ∧ u.out.notify = none ∧
          producedEntry s u (some pulledLow) .none (some (lowDuration s.cfg (dataSymbol s.tx.bb.getBit)))) ∧
      (s.tx.ack = true → s.tx.bb.isEom s.tx.len = true →
        u.out.notify = some .sendOk ∧ enteredIdle { s with tx := { s.tx with len := 0, resends := 0 } } u) ∧
      (s.tx.ack = false → s.tx.resends.toNat < 5 →
        u.state = .txFreeTime ∧ u.rx = s.rx ∧ u.tx = { s.tx with resends := s.tx.resends + 1 } ∧ u.out.notify = none ∧
          producedEntry s u (some released) .falling (some (freeTime s.cfg .resend))) ∧
      (s.tx.ack = false → 5 ≤ s.tx.resends.toNat →
        u.out.notify = some .sendFailed ∧ enteredIdle { s with tx := { s.tx with len := 0, resends := 0 } } u)

/-- R311 (e) and R350: an abort, from any state and whatever its cause, changes the registers that the Idle entry resets
and no other; a pending frame survives it. The recorded cause is the model's ghost value (log entry 7). -/
def Obligations.AbortsKeepThePendingFrame : Prop :=
  ∀ (cause : AbortCause) (s : State), s.out = noOut → s.selResult = none →
    aborted cause s (raiseAbort cause s) ∧ sameRun s (raiseAbort cause s) ∧
      (raiseAbort cause s).tx.len = s.tx.len ∧ (raiseAbort cause s).tx.resends = s.tx.resends ∧
      ∀ k, memRead (raiseAbort cause s).tx.bb.buf k = memRead s.tx.bb.buf k

/-! ### Commands -/

/-- R320: CMD_ENABLE enters Idle from Disabled and has no effect and no output in any other state. -/
def Obligations.EnableEntersIdle : Prop :=
  ∀ s : State,
    (s.state = .disabled →
      ∃ u, exec .cmdEnable s = .next u ∧ enteredIdle s u ∧ plainEntry u ∧ sameRun s u) ∧
    (s.state ≠ .disabled →
      ∃ u, exec .cmdEnable s = .next u ∧ sameRegs s u ∧ quiet u ∧ sameRun s u)

/-- R321 with R224: CMD_DISABLE enters Disabled from every state: the line is released, nothing is armed, both contexts are
cleared, LADDR is kept, and no notification and no reply is given. -/
def Obligations.DisableClearsBothContexts : Prop :=
  ∀ s : State, buffersWf s →
    ∃ u, exec .cmdDisable s = .next u ∧ u.state = .disabled ∧
      u.rx = ⟨⟨[], 0, 0⟩, false, false, 0, 0⟩ ∧ u.tx = ⟨⟨[], 0, 0⟩, 0, 0, false, false⟩ ∧ u.laddr = s.laddr ∧
      producedEntry s u (some released) .none none ∧ plainEntry u ∧ sameRun s u

/-- R322: CMD_SET_ADDR stores 0 to 15 and 255 and replies OK; any other value is rejected and changes nothing; in every
state. -/
def Obligations.SetAddrStoresLegalAddresses : Prop :=
  ∀ (s : State) (a : BitVec 8),
    ((a.toNat ≤ 15 ∨ a.toNat = 255) →
      ∃ u, exec (.cmdSetAddr a) s = .next u ∧ u.laddr = a ∧ sameRegsBut [.laddr] s u ∧
        u.out = { noOut with result := some .ok } ∧ u.abortCause = none ∧ u.selResult = none ∧ sameRun s u) ∧
    (¬ (a.toNat ≤ 15 ∨ a.toNat = 255) →
      ∃ u, exec (.cmdSetAddr a) s = .next u ∧ sameRegs s u ∧ u.out = { noOut with result := some .rejected } ∧
        u.abortCause = none ∧ u.selResult = none ∧ sameRun s u)

/-- R323: CMD_SUBMIT tests DISABLED, INVALID and BUSY in this order and changes nothing when it rejects; an accepted frame
is loaded, its length set and its resend count cleared; in Idle TxFreeTime is entered at once, elsewhere nothing but the
reply is produced. No receive register is written (R85). -/
def Obligations.SubmitLoadsAndStarts : Prop :=
  ∀ (s : State) (n : BitVec 5) (d : List Byte), buffersWf s →
    ∃ u, exec (.cmdSubmit n d) s = .next u ∧ sameRun s u ∧ u.abortCause = none ∧ u.selResult = none ∧
      u.out.notify = none ∧
      (s.state = .disabled → sameRegs s u ∧ u.out = { noOut with result := some .disabled }) ∧
      (s.state ≠ .disabled → (n.toNat = 0 ∨ 16 < n.toNat) →
        sameRegs s u ∧ u.out = { noOut with result := some .invalid }) ∧
      (s.state ≠ .disabled → 1 ≤ n.toNat → n.toNat ≤ 16 → s.tx.len ≠ 0 →
        sameRegs s u ∧ u.out = { noOut with result := some .busy }) ∧
      (s.state ≠ .disabled → 1 ≤ n.toNat → n.toNat ≤ 16 → s.tx.len = 0 →
        (∀ k, memRead u.tx.bb.buf k = if k < n.toNat then d.getD k 0 else memRead s.tx.bb.buf k) ∧
        u.tx.len = n ∧ u.tx.resends = 0 ∧ u.out.result = some .accepted ∧
        (s.state = .idle →
          u.state = .txFreeTime ∧ sameRegsBut (bufRegs .tx ++ [.txLen, .txResends, .gpioOut] ++ entryRegs) s u ∧
            producedEntry s u (some released) .falling (some (freeTime s.cfg (selectTier 0 s.tx.pi)))) ∧
        (s.state ≠ .idle →
          sameRegsBut (bufRegs .tx ++ [.txLen, .txResends]) s u ∧ u.out = { noOut with result := some .accepted }))

/-! ### Bit Transfer Buffer -/

/-- R141 and R142: RESET sets the cursor to (0, 0) and keeps the bytes; CLEAR zeroes the bytes too. No other register is
written.
The operation is issued as a selector of its own, with its operands on ports (log entry 3). -/
def Obligations.BufferResetAndClear : Prop :=
  ∀ (s : State) (b : BufSel), buffersWf s →
    (∃ u, exec (.bbReset b) s = .next u ∧ (u.buffer b).bit = 0 ∧ (u.buffer b).byte = 0 ∧
      (∀ k, memRead (u.buffer b).buf k = memRead (s.buffer b).buf k) ∧ sameRegsBut (cursorRegs b) s u ∧ sameRun s u ∧
      quiet u) ∧
    (∃ u, exec (.bbClear b) s = .next u ∧ (u.buffer b).bit = 0 ∧ (u.buffer b).byte = 0 ∧
      (∀ k, memRead (u.buffer b).buf k = 0) ∧ sameRegsBut (bufRegs b ++ cursorRegs b) s u ∧ sameRun s u ∧ quiet u)

/-- R143: GET_BIT gives bit 7 - BIT of the byte at the cursor, 0 at the one-past-end position, and changes nothing.
The operation is issued as a selector of its own, with its operands on ports (log entry 3). -/
def Obligations.GetBitReadsAtTheCursor : Prop :=
  ∀ (s : State) (b : BufSel),
    ∃ u v, exec (.bbGetBit b) s = .next u ∧ u.selResult = some (.bit v) ∧ u.out = noOut ∧ u.abortCause = none ∧
      sameRegs s u ∧ sameRun s u ∧
      (16 ≤ (s.buffer b).byte.toNat → v = false) ∧
      ((s.buffer b).byte.toNat < 16 →
        v = (memRead (s.buffer b).buf (s.buffer b).byte.toNat).getLsbD (7 - (s.buffer b).bit.toNat))

/-- R144: SET_BIT writes bit 7 - BIT of the byte at the cursor, clearing it when the value is 0, and nothing else; at the
one-past-end position it has no effect. That BB_tx may be named is the model's choice (log entry 23).
The operation is issued as a selector of its own, with its operands on ports (log entry 3). -/
def Obligations.SetBitWritesOneBit : Prop :=
  ∀ (s : State) (b : BufSel) (v : Bool), buffersWf s →
    ∃ u, exec (.bbSetBit b v) s = .next u ∧ sameRun s u ∧ quiet u ∧
      (16 ≤ (s.buffer b).byte.toNat → sameRegs s u) ∧
      ((s.buffer b).byte.toNat < 16 →
        (∀ j < 8, (memRead (u.buffer b).buf (s.buffer b).byte.toNat).getLsbD j =
          if j = 7 - (s.buffer b).bit.toNat then v else (memRead (s.buffer b).buf (s.buffer b).byte.toNat).getLsbD j) ∧
        (∀ k, k ≠ (s.buffer b).byte.toNat → memRead (u.buffer b).buf k = memRead (s.buffer b).buf k) ∧
        sameRegsBut (bufRegs b) s u)

/-- R145: INC_BIT advances the bit index, carries into the byte index at bit 7, and saturates at the one-past-end
position; no byte and no other register is written.
The operation is issued as a selector of its own, with its operands on ports (log entry 3). -/
def Obligations.IncBitAdvancesTheCursor : Prop :=
  ∀ (s : State) (b : BufSel),
    ∃ u, exec (.bbIncBit b) s = .next u ∧ sameRun s u ∧ quiet u ∧ sameRegsBut (cursorRegs b) s u ∧
      (16 ≤ (s.buffer b).byte.toNat → u.buffer b = s.buffer b) ∧
      ((s.buffer b).byte.toNat < 16 → (s.buffer b).bit.toNat < 7 →
        (u.buffer b).bit.toNat = (s.buffer b).bit.toNat + 1 ∧ (u.buffer b).byte = (s.buffer b).byte) ∧
      ((s.buffer b).byte.toNat < 16 → (s.buffer b).bit.toNat = 7 →
        (u.buffer b).bit = 0 ∧ (u.buffer b).byte.toNat = (s.buffer b).byte.toNat + 1)

/-- R146 and R148: IS_EOM is true exactly at bit 0 of byte `len`; SNAPSHOT gives the byte index and sixteen bytes, those
below it from the buffer and 0 above. Neither changes a register. That IS_EOM may name BB_rx and SNAPSHOT BB_tx is the
model's choice (log entry 23).
The operation is issued as a selector of its own, with its operands on ports (log entry 3). -/
def Obligations.IsEomAndSnapshotOnlyRead : Prop :=
  ∀ (s : State) (b : BufSel),
    (∀ len : BitVec 5, ∃ u v, exec (.bbIsEom b len) s = .next u ∧ u.selResult = some (.bit v) ∧
      (v = true ↔ (s.buffer b).bit.toNat = 0 ∧ (s.buffer b).byte.toNat = len.toNat) ∧ u.out = noOut ∧
      u.abortCause = none ∧ sameRegs s u ∧ sameRun s u) ∧
    (∃ u bytes, exec (.bbSnapshot b) s = .next u ∧ u.selResult = some (.snapshot (s.buffer b).byte bytes) ∧
      bytes.length = 16 ∧
      (∀ k < 16, bytes.getD k 0 = if k < (s.buffer b).byte.toNat then memRead (s.buffer b).buf k else 0) ∧
      u.out = noOut ∧ u.abortCause = none ∧ sameRegs s u ∧ sameRun s u)

/-- R147: LOAD writes bytes 0 to len - 1 from its data and no other byte, and leaves the cursor. With a length above 16,
for which R147 states no result, it runs too and leaves the cursor and every register but the instance's bytes, which are
a free value: one is drawn, and this holds whatever it is (the model's choice, log entry 8). That BB_rx may be named
although the block loads BB_tx only is the model's choice (log entry 23).
The operation is issued as a selector of its own, with its operands on ports (log entry 3). -/
def Obligations.LoadWritesTheFirstBytes : Prop :=
  ∀ (s : State) (b : BufSel) (len : BitVec 5) (d : List Byte), buffersWf s →
    (len.toNat ≤ 16 →
      ∃ u, exec (.bbLoad b len d) s = .next u ∧
        (∀ k, memRead (u.buffer b).buf k = if k < len.toNat then d.getD k 0 else memRead (s.buffer b).buf k) ∧
        (u.buffer b).bit = (s.buffer b).bit ∧ (u.buffer b).byte = (s.buffer b).byte ∧ sameRegsBut (bufRegs b) s u ∧
        sameRun s u ∧ quiet u) ∧
    (16 < len.toNat →
      ∃ u, exec (.bbLoad b len d) s = .next u ∧
        (∀ k < 16, memRead (u.buffer b).buf k = freeBufferByte s.freeDraws k) ∧
        (∀ k, 16 ≤ k → memRead (u.buffer b).buf k = memRead (s.buffer b).buf k) ∧
        (u.buffer b).bit = (s.buffer b).bit ∧ (u.buffer b).byte = (s.buffer b).byte ∧ sameRegsBut (bufRegs b) s u ∧
        u.cfg = s.cfg ∧ u.inputs = s.inputs ∧ u.refusedMark = s.refusedMark ∧ u.freeDraws = s.freeDraws + 1 ∧ quiet u)

/-- R150: the bits of a loaded frame of any length 1 to 16, moved one by one from one buffer to the other, give the same
bytes and leave both cursors at the end of the frame. -/
def Obligations.MovedBitsGiveTheSameBytes : Prop :=
  ∀ (rx tx : BitBuffer) (n : Nat) (d : List Byte), Memory.wf rx.buf = true → Memory.wf tx.buf = true → 1 ≤ n → n ≤ 16 →
    let r := moveBits (8 * n) rx.reset (tx.reset.load n d)
    (∀ k < n, memRead r.1.buf k = d.getD k 0 ∧ memRead r.1.buf k = memRead r.2.buf k) ∧
      r.1.bit = 0 ∧ r.1.byte.toNat = n ∧ r.2.bit = 0 ∧ r.2.byte.toNat = n

/-! ### Timing Policy and Debounce Filter -/

/-- A symbol's row of R170 in µs: low and high nominal, minimum and maximum low, minimum and maximum total. -/
def Sys2Proof.Machine.symbolRow (c : Cfg) : Symbol → Nat × Nat × Nat × Nat × Nat × Nat
  | .start => (c.startLowNomUs, c.startHighNomUs, c.startMinLowUs, c.startMaxLowUs, c.startMinTotalUs, c.startMaxTotalUs)
  | .data0 => (c.d0LowNomUs, c.d0HighNomUs, c.d0MinLowUs, c.d0MaxLowUs, c.d0MinTotalUs, c.d0MaxTotalUs)
  | .data1 => (c.d1LowNomUs, c.d1HighNomUs, c.d1MinLowUs, c.d1MaxLowUs, c.d1MinTotalUs, c.d1MaxTotalUs)

/-- R171 and R172, their pseudocode: both windows are inclusive and widened by 100 µs; the total is the exact sum. Nothing
is written. At `t = 0` under a profile with D1_MIN_LOW at most TOL the pseudocode of R171 answers valid, against the remark
beside it that `t = 0` is valid for no symbol: following the pseudocode there is the model's reading (log entry 21).
The operation is issued as a selector of its own, with its operands on ports (log entry 3). -/
def Obligations.WindowsAreInclusiveAndWidened : Prop :=
  ∀ (s : State) (sym : Symbol) (t low high : Tick),
    (∃ u v, exec (.tpIsValidLow sym t) s = .next u ∧ u.selResult = some (.bit v) ∧
      (v = true ↔ (symbolRow s.cfg sym).2.2.1 * s.cfg.ticksPerUs ≤ t.toNat + 100 * s.cfg.ticksPerUs ∧
        t.toNat ≤ (symbolRow s.cfg sym).2.2.2.1 * s.cfg.ticksPerUs + 100 * s.cfg.ticksPerUs) ∧
      u.out = noOut ∧ u.abortCause = none ∧ sameRegs s u ∧ sameRun s u) ∧
    (∃ u v, exec (.tpIsValidTotal sym low high) s = .next u ∧ u.selResult = some (.bit v) ∧
      (v = true ↔
        (symbolRow s.cfg sym).2.2.2.2.1 * s.cfg.ticksPerUs ≤ low.toNat + high.toNat + 100 * s.cfg.ticksPerUs ∧
        low.toNat + high.toNat ≤ (symbolRow s.cfg sym).2.2.2.2.2 * s.cfg.ticksPerUs + 100 * s.cfg.ticksPerUs) ∧
      u.out = noOut ∧ u.abortCause = none ∧ sameRegs s u ∧ sameRun s u)

/-- R173 and R174: the nominal durations of the table of R170, in ticks, for a well-formed configuration.
The operation is issued as a selector of its own, with its operands on ports (log entry 3). -/
def Obligations.NominalDurations : Prop :=
  ∀ (s : State) (sym : Symbol), cfgWf s.cfg = true →
    (∃ u v, exec (.tpLowDuration sym) s = .next u ∧ u.selResult = some (.ticks v) ∧
      v.toNat = (symbolRow s.cfg sym).1 * s.cfg.ticksPerUs ∧ u.out = noOut ∧ u.abortCause = none ∧ sameRegs s u ∧
      sameRun s u) ∧
    (∃ u v, exec (.tpHighDuration sym) s = .next u ∧ u.selResult = some (.ticks v) ∧
      v.toNat = (symbolRow s.cfg sym).2.1 * s.cfg.ticksPerUs ∧ u.out = noOut ∧ u.abortCause = none ∧ sameRegs s u ∧
      sameRun s u)

/-- R175: CLASSIFY answers DATA0 in the data-0 window, else DATA1 in the data-1 window, else INVALID.
The operation is issued as a selector of its own, with its operands on ports (log entry 3). -/
def Obligations.ClassifyTestsDataZeroFirst : Prop :=
  ∀ (s : State) (t : Tick),
    ∃ u k, exec (.tpClassify t) s = .next u ∧ u.selResult = some (.bitClass k) ∧ u.out = noOut ∧ u.abortCause = none ∧
      sameRegs s u ∧ sameRun s u ∧
      (k = .data0 ↔ isValidLow s.cfg .data0 t = true) ∧
      (k = .data1 ↔ isValidLow s.cfg .data0 t = false ∧ isValidLow s.cfg .data1 t = true) ∧
      (k = .invalid ↔ isValidLow s.cfg .data0 t = false ∧ isValidLow s.cfg .data1 t = false)

/-- R176 and R177 with R179: the fallback timeouts, in ticks, for a well-formed configuration.
The operation is issued as a selector of its own, with its operands on ports (log entry 3). -/
def Obligations.FallbackTimeouts : Prop :=
  ∀ (s : State) (sym : Symbol), cfgWf s.cfg = true →
    (∃ u v, exec (.tpCapLow sym) s = .next u ∧ u.selResult = some (.ticks v) ∧
      v.toNat = (if sym = .start then s.cfg.startMaxLowUs + 100 else max s.cfg.d0MaxLowUs s.cfg.d1MaxLowUs + 100) *
        s.cfg.ticksPerUs ∧ u.out = noOut ∧ u.abortCause = none ∧ sameRegs s u ∧ sameRun s u) ∧
    (∃ u v, exec (.tpCapHigh sym) s = .next u ∧ u.selResult = some (.ticks v) ∧
      (v.toNat : Int) = (if sym = .start then
          (s.cfg.startMaxTotalUs + 100 : Int) - (s.cfg.startMinLowUs - 100)
        else max ((s.cfg.d0MaxTotalUs + 100 : Int) - (s.cfg.d0MinLowUs - 100))
          ((s.cfg.d1MaxTotalUs + 100 : Int) - (s.cfg.d1MinLowUs - 100))) * s.cfg.ticksPerUs ∧
      u.out = noOut ∧ u.abortCause = none ∧ sameRegs s u ∧ sameRun s u)

/-- R178: the free times are 2, 4 and 6 nominal bit periods, and the tier of the TxFreeTime entry is RESEND with a resend
counted, else PRESENT for the present initiator, else NEW.
The operation is issued as a selector of its own, with its operands on ports (log entry 3). -/
def Obligations.FreeTimesAndTheirTier : Prop :=
  (∀ (s : State) (tier : Tier), cfgWf s.cfg = true →
    ∃ u v, exec (.tpFreeTime tier) s = .next u ∧ u.selResult = some (.ticks v) ∧
      v.toNat = (match tier with | .resend => 2 | .new => 4 | .present => 6) * (2400 * s.cfg.ticksPerUs) ∧
      u.out = noOut ∧ u.abortCause = none ∧ sameRegs s u ∧ sameRun s u) ∧
  ∀ (s : State) (line : Option Level), cfgWf s.cfg = true →
    ((enter .txFreeTime line s).armTmo.toNat =
      (if 0 < s.tx.resends.toNat then 2 else if s.tx.pi = true then 6 else 4) * (2400 * s.cfg.ticksPerUs))

/-- R180: a low in a data window with a total in its window is classified and validated as that bit, and a low more than
the tolerance outside both windows is INVALID, for every well-formed configuration. -/
def Obligations.ToleranceIsSymmetric : Prop :=
  ∀ (c : Cfg) (low high : Tick), cfgWf c = true →
    (∀ b : Bool, minLow c (dataSymbol b) ≤ tickInt low → tickInt low ≤ maxLow c (dataSymbol b) →
      minTotal c (dataSymbol b) ≤ tickInt low + tickInt high → tickInt low + tickInt high ≤ maxTotal c (dataSymbol b) →
        classifyLow c low = (if b then .data1 else .data0) ∧ isValidTotal c (dataSymbol b) low high = true) ∧
    ((∀ b : Bool, tickInt low < minLow c (dataSymbol b) - tol c ∨ maxLow c (dataSymbol b) + tol c < tickInt low) →
      classifyLow c low = .invalid)

/-- No phase the validators accept is cut short by its own timeout, and the timeouts are the largest lows and totals they
accept (R179, R398). -/
def Obligations.CapsNeverCutAValidPhase : Prop :=
  ∀ (c : Cfg) (sym : Symbol) (low high : Tick), cfgWf c = true →
    (isValidLow c sym low = true → low.toNat ≤ (capLow c sym).toNat) ∧
    (isValidLow c sym low = true → isValidTotal c sym low high = true → high.toNat ≤ (capHigh c sym).toNat) ∧
    isValidLow c .start (capLow c .start) = true ∧ classifyLow c (capLow c .data0) ≠ .invalid

/-- An armed edge and an armed timeout due at the same tick: the collaborator may deliver either, and the block processes
either, so both successors are runs (R376, R398). -/
def Obligations.RaceAdmitsBothSuccessors : Prop :=
  ∀ s : State, BaseInv s → s.armEdge ≠ .none → s.armTv = true →
    contractAdmits s (.evCapture s.armTmo) = true ∧
    (∃ u, exec (.evCapture s.armTmo) s = .next u ∧ reachesOneOf (captureTargets s.state) u ∧ sameRun s u) ∧
    ∀ l : Level, contractAdmits s (.evTimeout l) = true ∧
      ∃ u, exec (.evTimeout l) s = .next u ∧ reachesOneOf (timeoutTargets s.state) u ∧ sameRun s u

/-- R201, R202 and R203: the three operations of the Debounce Filter, with the configuration's tick rate. CLASSIFY writes
nothing, QUIET and RESET write RX_DBC alone.
The operation is issued as a selector of its own, with its operands on ports (log entry 3). -/
def Obligations.DebounceOperations : Prop :=
  ∀ s : State, cfgWf s.cfg = true →
    (∀ t : Tick, ∃ u k, exec (.dbfClassify t) s = .next u ∧ u.selResult = some (.startClass k) ∧
      (isValidLow s.cfg .start t = true → k = .validStart) ∧
      (isValidLow s.cfg .start t = false → t.toNat < 200 * s.cfg.ticksPerUs → k = .glitch) ∧
      (isValidLow s.cfg .start t = false → 200 * s.cfg.ticksPerUs ≤ t.toNat → k = .abort) ∧
      u.out = noOut ∧ u.abortCause = none ∧ sameRegs s u ∧ sameRun s u) ∧
    (∃ u q, exec .dbfQuiet s = .next u ∧ u.selResult = some (.ticks q) ∧
      (s.rx.dbc.toNat < 3 → q.toNat = 100 * s.cfg.ticksPerUs ∧ u.rx.dbc.toNat = s.rx.dbc.toNat + 1) ∧
      (3 ≤ s.rx.dbc.toNat → q.toNat = 500 * s.cfg.ticksPerUs ∧
        u.rx.dbc.toNat = if s.cfg.debounceResetAfterLong then 0 else s.rx.dbc.toNat) ∧
      u.out = noOut ∧ u.abortCause = none ∧ sameRegsBut [.rxDbc] s u ∧ sameRun s u) ∧
    (∃ u, exec .dbfReset s = .next u ∧ u.rx.dbc = 0 ∧ sameRegsBut [.rxDbc] s u ∧ quiet u ∧ sameRun s u)

/-- R204: from Idle with no glitch counted, any number of glitches with no other start-bit low between them arms the quiet
periods of the rule, and ends in Idle. -/
def Obligations.GlitchesEscalateTheQuietPeriod : Prop :=
  ∀ (s : State) (gs : List (Tick × Tick × Level)), cfgWf s.cfg = true → ProtoInv s → s.state = .idle → s.rx.dbc = 0 →
    (∀ g ∈ gs, tickInt g.2.1 < debLimit s.cfg) →
    (quietPeriods (glitchOps gs) s).map BitVec.toNat =
        (List.range gs.length).map (fun i =>
          (if s.cfg.debounceResetAfterLong then (if (i + 1) % 4 = 0 then 500 else 100) else (if i < 3 then 100 else 500)) *
            s.cfg.ticksPerUs) ∧
      ∃ u, after (glitchOps gs) s = some u ∧ u.state = .idle

/-! ### Whole frames -/

/-- A transmit attempt whose every ACK is verified as ACK: exactly 3 + 21 n timeouts from TxFreeTime to Idle, the phases of
the frame of R118 to R121 driven in order, and SEND_OK at the last step alone. The lines of the timeouts that are no ACK
sample are arbitrary. -/
def Obligations.AcknowledgedFrameIsSent : Prop :=
  ∀ (s : State) (lines : List Level), ProtoInv s → s.state = .txFreeTime → lines.length = 3 + 21 * s.tx.len.toNat →
    (∀ k < s.tx.len.toNat, lines[3 + 21 * k + 19]? = some (isBroadcast s.tx.bb)) →
    let tr := trail (lines.map Instr.evTimeout) s
    tr.length = 3 + 21 * s.tx.len.toNat ∧
      (∀ u ∈ tr.dropLast, u.state ≠ .idle ∧ u.out.notify = none) ∧
      tr.dropLast.map phaseOf = framePhases s.cfg ((List.range s.tx.len.toNat).map (memRead s.tx.bb.buf)) ∧
      ∃ u, tr.getLast? = some u ∧ u.state = .idle ∧ u.out.notify = some .sendOk ∧ u.tx.len = 0 ∧ u.tx.resends = 0

/-- Six attempts whose header is not acknowledged end in SEND_FAILED, notified once, at the last of 144 timeouts; nothing
is notified before (R303, C2). -/
def Obligations.SixNaksFailTheFrame : Prop :=
  ∀ (s : State) (lines : List Level), ProtoInv s → s.state = .txFreeTime → s.tx.resends = 0 → lines.length = 144 →
    (∀ k < 6, lines[24 * k + 22]? = some (!isBroadcast s.tx.bb)) →
    notifs (lines.map Instr.evTimeout) s = [.sendFailed] ∧ notifs ((lines.take 143).map Instr.evTimeout) s = [] ∧
      ∃ u, after (lines.map Instr.evTimeout) s = some u ∧ u.state = .idle ∧ u.tx.len = 0 ∧ u.tx.resends = 0

/-- A valid frame of n bytes, with any valid durations and any lines at its ACK samples that do not NAK a broadcast, is
received from Idle in 3 + 19 n - 1 captures and 2 n + 1 timeouts; it is delivered once, with its bytes, if it is addressed
to the device or broadcast, and not otherwise; the block is back in Idle and nothing was refused (R311 (c), R251). -/
def Obligations.ValidFrameIsReceived : Prop :=
  ∀ (s : State) (frame : List SeenByte) (startEdge startLow startHigh : Tick), cfgWf s.cfg = true → ProtoInv s →
    s.state = .idle → 1 ≤ frame.length → frame.length ≤ 16 → isValidLow s.cfg .start startLow = true →
    isValidTotal s.cfg .start startLow startHigh = true →
    seenBytesValid s.cfg (decide ((seenDest frame).toNat = 15)) frame = true →
    let ops := seenFrameOps startEdge startLow startHigh frame
    ((ops.filter (fun i => match i with | .evCapture _ => true | _ => false)).length = 3 + 19 * frame.length - 1 ∧
      (ops.filter (fun i => match i with | .evTimeout _ => true | _ => false)).length = 2 * frame.length + 1) ∧
    notifs ops s =
      (if (seenDest frame).toNat = s.laddr.toNat ∨ (seenDest frame).toNat = 15 then
        [.rxFrame (BitVec.ofNat 5 frame.length) (padded (frame.map SeenByte.value))] else []) ∧
    ∃ u, after ops s = some u ∧ u.state = .idle ∧ u.refusedMark = s.refusedMark

/-- Timeouts alone bring the block back to Idle: within 6 (3 + 21 * 16) of them from a transmit state, the bound of R311
(d), and within three more from a receive state. The three more are not R311's, which gives its bound for every state: they
are the model's reading of R311 (d) beside R225 (log entry 22). The bound for a receive state counts to a step that ends in
Idle, after the pending frame is sent; the chained Idle entry of R225 comes within R311's own bound. -/
def Obligations.TimeoutsReachIdle : Prop :=
  ∀ (s : State) (lines : List Level), ProtoInv s → s.state ≠ .disabled → s.state ≠ .idle →
    lines.length = 6 * (3 + 21 * 16) + (if s.state.isRx then 3 else 0) →
    ∃ k ≤ lines.length, ∃ u, after ((lines.take k).map Instr.evTimeout) s = some u ∧ u.state = .idle
end

