-- ==== Sys2Proof/Laws/Memory.lean ====
section
/-! SUPPORT. The frame buffers as memories: a read after a write, and the canonical form every operation keeps. -/

namespace Sys2Proof.Machine

/-- Every address of a memory lies at or above a bound; the shape of a rising list seen from its front. -/
theorem memWf_cons {a : Nat} {b : Byte} {m : Memory} :
    Memory.wf ((a, b) :: m) = true ↔
      (∀ c ∈ m, a < c.1) ∧ a < maxLen ∧ b ≠ unlistedByte ∧ Memory.wf m = true := by
  simp only [Memory.wf, List.pairwise_cons, List.all_cons, Bool.and_eq_true, decide_eq_true_eq]
  tauto

theorem memWf_nil : Memory.wf [] = true := by decide

theorem memRead_of_lt {m : Memory} {k : Nat} (h : ∀ c ∈ m, k < c.1) : memRead m k = unlistedByte := by
  induction m with
  | nil => rfl
  | cons c m ih =>
    obtain ⟨a, b⟩ := c
    have ha : k < a := h (a, b) (by simp)
    rw [memRead, if_neg (by omega)]
    exact ih (fun c hc => h c (by simp [hc]))

/-- A write reads back at its own address. -/
theorem memRead_memWrite_same (m : Memory) (k : Nat) (v : Byte) (h : Memory.wf m = true) :
    memRead (memWrite m k v) k = v := by
  induction m with
  | nil => by_cases hv : v = unlistedByte <;> simp [memWrite, memRead, hv]
  | cons c m ih =>
    obtain ⟨a, b⟩ := c
    obtain ⟨hlt, -, -, hm⟩ := memWf_cons.1 h
    simp only [memWrite]
    split
    · rename_i hk
      split
      · rename_i hv
        rw [memRead, if_neg (by omega), hv]
        exact memRead_of_lt (fun c hc => lt_trans hk (hlt c hc))
      · simp [memRead]
    · split
      · rename_i hk
        subst hk
        split
        · rename_i hv
          rw [hv]
          exact memRead_of_lt hlt
        · simp [memRead]
      · rename_i h1 h2
        rw [memRead, if_neg (by omega)]
        exact ih hm

/-- A write changes no other address. -/
theorem memRead_memWrite_other (m : Memory) {k j : Nat} (v : Byte) (hjk : j ≠ k) :
    memRead (memWrite m k v) j = memRead m j := by
  induction m with
  | nil => by_cases hv : v = unlistedByte <;> simp [memWrite, memRead, hv, Ne.symm hjk]
  | cons c m ih =>
    obtain ⟨a, b⟩ := c
    simp only [memWrite]
    split
    · split
      · rfl
      · rw [memRead, if_neg (Ne.symm hjk)]
    · split
      · rename_i hk
        subst hk
        split
        · rw [memRead, if_neg (Ne.symm hjk)]
        · rw [memRead, if_neg (Ne.symm hjk), memRead, if_neg (Ne.symm hjk)]
      · rw [memRead, memRead, ih]

/-- A write adds no address but its own. -/
theorem mem_memWrite {m : Memory} {k : Nat} {v : Byte} {c : Host.Cell} (h : c ∈ memWrite m k v) :
    c ∈ m ∨ c = (k, v) := by
  induction m with
  | nil =>
    by_cases hv : v = unlistedByte
    · simp [memWrite, hv] at h
    · simp [memWrite, hv] at h
      exact Or.inr h
  | cons d m ih =>
    obtain ⟨a, b⟩ := d
    simp only [memWrite] at h
    split at h
    · split at h
      · exact Or.inl h
      · simpa [or_comm, or_assoc] using h
    · split at h
      · split at h
        · exact Or.inl (by simp [h])
        · rcases List.mem_cons.1 h with h | h
          · exact Or.inr h
          · exact Or.inl (by simp [h])
      · rcases List.mem_cons.1 h with h | h
        · exact Or.inl (by simp [h])
        · rcases ih h with h | h
          · exact Or.inl (by simp [h])
          · exact Or.inr h

/-- A write to a byte that exists keeps the canonical form. -/
theorem memWrite_wf {m : Memory} {k : Nat} (v : Byte) (hk : k < maxLen) (h : Memory.wf m = true) :
    Memory.wf (memWrite m k v) = true := by
  induction m with
  | nil =>
    by_cases hv : v = unlistedByte
    · simp [memWrite, hv, memWf_nil]
    · rw [memWrite, if_neg hv]
      exact memWf_cons.2 ⟨by simp, hk, hv, memWf_nil⟩
  | cons c m ih =>
    obtain ⟨a, b⟩ := c
    obtain ⟨hlt, ha, hb, hm⟩ := memWf_cons.1 h
    simp only [memWrite]
    split
    · rename_i hka
      split
      · exact h
      · rename_i hv
        refine memWf_cons.2 ⟨?_, hk, hv, h⟩
        intro c hc
        rcases List.mem_cons.1 hc with hc | hc
        · rw [hc]; exact hka
        · exact lt_trans hka (hlt c hc)
    · split
      · rename_i hka
        split
        · exact hm
        · rename_i hv
          subst hka
          exact memWf_cons.2 ⟨hlt, hk, hv, hm⟩
      · rename_i h1 h2
        refine memWf_cons.2 ⟨?_, ha, hb, ih hm⟩
        intro c hc
        rcases mem_memWrite hc with hc | hc
        · exact hlt c hc
        · rw [hc]; show a < k; omega

theorem memFill_wf {m : Memory} (f : Nat → Byte) (h : Memory.wf m = true) :
    ∀ n, n ≤ maxLen → Memory.wf (memFill f m n) = true
  | 0, _ => h
  | n + 1, hn => memWrite_wf _ (by omega) (memFill_wf f h n (by omega))

/-- The writes of a fill: each address below `n` holds its value, every other address keeps its own. -/
theorem memRead_memFill {m : Memory} (f : Nat → Byte) (h : Memory.wf m = true) (k : Nat) :
    ∀ n, n ≤ maxLen → memRead (memFill f m n) k = if k < n then f k else memRead m k
  | 0, _ => by simp [memFill]
  | n + 1, hn => by
    have ih := memRead_memFill f h k n (by omega)
    by_cases hk : k = n
    · subst hk
      rw [memFill, memRead_memWrite_same _ _ _ (memFill_wf f h k (by omega)), if_pos (by omega)]
    · rw [memFill, memRead_memWrite_other _ _ hk, ih]
      by_cases hlt : k < n
      · rw [if_pos hlt, if_pos (by omega)]
      · rw [if_neg hlt, if_neg (by omega)]

/-- A canonical memory all of whose bytes read 0 lists nothing. -/
theorem eq_nil_of_memRead {m : Memory} (h : Memory.wf m = true) (h0 : ∀ k, memRead m k = unlistedByte) : m = [] := by
  cases m with
  | nil => rfl
  | cons c m =>
    obtain ⟨a, b⟩ := c
    obtain ⟨-, -, hb, -⟩ := memWf_cons.1 h
    have := h0 a
    simp [memRead] at this
    exact absurd this hb

/-- A byte that does not exist reads as an unlisted one in a canonical memory. -/
theorem memRead_of_ge {m : Memory} (h : Memory.wf m = true) {k : Nat} (hk : maxLen ≤ k) : memRead m k = unlistedByte := by
  induction m with
  | nil => rfl
  | cons c m ih =>
    obtain ⟨a, b⟩ := c
    obtain ⟨-, ha, -, hm⟩ := memWf_cons.1 h
    rw [memRead, if_neg (by omega)]
    exact ih hm

end Sys2Proof.Machine
end

