-- ==== Sys2Proof/Laws/BitBuffer.lean ====
section
/-! SUPPORT. The operations of the Bit Transfer Buffer: what each leaves, and that each keeps the canonical form. -/

namespace Sys2Proof.Machine

/-! ### Bits of a byte -/

/-- Setting a bit reads back at its own index. -/
theorem wireBit_withWireBit_same : ∀ (b : Byte) (i : BitVec 3) (v : Bool), wireBit (withWireBit b i v) i = v := by
  intro b i v
  have hi : 7 - i.toNat < 8 := by omega
  cases v <;> simp [wireBit, withWireBit, hi]

/-- Setting a bit changes no other bit. -/
theorem wireBit_withWireBit_other (b : Byte) {i j : BitVec 3} (v : Bool) (hij : j ≠ i) :
    wireBit (withWireBit b i v) j = wireBit b j := by
  have hne : 7 - j.toNat ≠ 7 - i.toNat := by
    intro h
    apply hij
    apply BitVec.eq_of_toNat_eq
    omega
  have hj : 7 - j.toNat < 8 := by omega
  rcases Nat.lt_or_gt_of_ne hne with h | h
  · cases v <;> simp [wireBit, withWireBit, hj, h]
  · have h' : ¬ 7 - j.toNat < 7 - i.toNat := by omega
    have h0 : 7 - j.toNat - (7 - i.toNat) ≠ 0 := by omega
    cases v <;> simp [wireBit, withWireBit, hj, h', h0]

/-- A byte is its eight wire bits. -/
theorem eq_of_wireBit {a b : Byte} (h : ∀ i : BitVec 3, wireBit a i = wireBit b i) : a = b := by
  apply BitVec.eq_of_getLsbD_eq
  intro k hk
  have := h (BitVec.ofNat 3 (7 - k))
  simp only [wireBit, BitVec.toNat_ofNat] at this
  have h7 : 7 - (7 - k) % 2 ^ 3 = k := by omega
  rwa [h7] at this

/-! ### The cursor -/

@[simp] theorem incBit_buf (b : BitBuffer) : b.incBit.buf = b.buf := by
  unfold BitBuffer.incBit; split <;> [rfl; (split <;> rfl)]

@[simp] theorem setBit_bit (v : Bool) (b : BitBuffer) : (b.setBit v).bit = b.bit := by
  unfold BitBuffer.setBit; split <;> rfl

@[simp] theorem setBit_byte (v : Bool) (b : BitBuffer) : (b.setBit v).byte = b.byte := by
  unfold BitBuffer.setBit; split <;> rfl

@[simp] theorem load_bit (n : Nat) (d : List Byte) (b : BitBuffer) : (b.load n d).bit = b.bit := rfl
@[simp] theorem load_byte (n : Nat) (d : List Byte) (b : BitBuffer) : (b.load n d).byte = b.byte := rfl

/-- INC_BIT inside a byte. -/
theorem incBit_of_lt {b : BitBuffer} (hb : b.byte.toNat < 16) (h : b.bit.toNat < 7) :
    b.incBit.bit.toNat = b.bit.toNat + 1 ∧ b.incBit.byte = b.byte := by
  rw [BitBuffer.incBit, if_neg (by simp only [maxLen]; omega), if_pos h]
  refine ⟨?_, rfl⟩
  have h1 : (1 : BitVec 3).toNat = 1 := rfl
  simp only [BitVec.toNat_add, h1]
  omega

/-- INC_BIT at the last bit of a byte. -/
theorem incBit_of_eq {b : BitBuffer} (hb : b.byte.toNat < 16) (h : b.bit.toNat = 7) :
    b.incBit.bit = 0 ∧ b.incBit.byte.toNat = b.byte.toNat + 1 := by
  rw [BitBuffer.incBit, if_neg (by simp only [maxLen]; omega), if_neg (by omega)]
  refine ⟨rfl, ?_⟩
  have h1 : (1 : BitVec 5).toNat = 1 := rfl
  simp only [BitVec.toNat_add, h1]
  omega

/-- INC_BIT at the one-past-end position. -/
theorem incBit_of_ge {b : BitBuffer} (hb : 16 ≤ b.byte.toNat) : b.incBit = b := by
  rw [BitBuffer.incBit, if_pos hb]

/-- INC_BIT never leaves the legal cursor positions. -/
theorem incBit_byte_le {b : BitBuffer} (h : b.byte.toNat ≤ 16) : b.incBit.byte.toNat ≤ 16 := by
  by_cases hb : b.byte.toNat < 16
  · by_cases h7 : b.bit.toNat < 7
    · rw [(incBit_of_lt hb h7).2]; exact h
    · rw [(incBit_of_eq hb (by omega)).2]; omega
  · rw [incBit_of_ge (by omega)]; exact h

/-! ### The buffer -/

theorem getBit_of_lt {b : BitBuffer} (hb : b.byte.toNat < 16) :
    b.getBit = wireBit (memRead b.buf b.byte.toNat) b.bit := by
  rw [BitBuffer.getBit, if_neg (by simp only [maxLen]; omega)]

theorem setBit_of_ge {b : BitBuffer} (v : Bool) (hb : 16 ≤ b.byte.toNat) : b.setBit v = b := by
  rw [BitBuffer.setBit, if_pos hb]

theorem setBit_buf_of_lt {b : BitBuffer} (v : Bool) (hb : b.byte.toNat < 16) :
    (b.setBit v).buf = memWrite b.buf b.byte.toNat (withWireBit (memRead b.buf b.byte.toNat) b.bit v) := by
  rw [BitBuffer.setBit, if_neg (by simp only [maxLen]; omega)]

theorem setBit_wf {b : BitBuffer} (v : Bool) (h : Memory.wf b.buf = true) : Memory.wf (b.setBit v).buf = true := by
  by_cases hb : b.byte.toNat < 16
  · rw [setBit_buf_of_lt v hb]; exact memWrite_wf _ hb h
  · rw [setBit_of_ge v (by omega)]; exact h

/-- SET_BIT writes the byte at the cursor and no other. -/
theorem memRead_setBit_other {b : BitBuffer} (v : Bool) {k : Nat} (hk : k ≠ b.byte.toNat) :
    memRead (b.setBit v).buf k = memRead b.buf k := by
  by_cases hb : b.byte.toNat < 16
  · rw [setBit_buf_of_lt v hb, memRead_memWrite_other _ _ hk]
  · rw [setBit_of_ge v (by omega)]

theorem memRead_setBit_same {b : BitBuffer} (v : Bool) (h : Memory.wf b.buf = true) (hb : b.byte.toNat < 16) :
    memRead (b.setBit v).buf b.byte.toNat = withWireBit (memRead b.buf b.byte.toNat) b.bit v := by
  rw [setBit_buf_of_lt v hb, memRead_memWrite_same _ _ _ h]

/-- A bit just set is the bit at the cursor. -/
theorem getBit_setBit {b : BitBuffer} (v : Bool) (h : Memory.wf b.buf = true) (hb : b.byte.toNat < 16) :
    (b.setBit v).getBit = v := by
  rw [getBit_of_lt (by simpa using hb)]
  simp only [setBit_byte, setBit_bit]
  rw [memRead_setBit_same v h hb, wireBit_withWireBit_same]

theorem load_wf {b : BitBuffer} {n : Nat} (d : List Byte) (hn : n ≤ maxLen) (h : Memory.wf b.buf = true) :
    Memory.wf (b.load n d).buf = true := memFill_wf _ h n hn

theorem memRead_load {b : BitBuffer} {n : Nat} (d : List Byte) (hn : n ≤ maxLen) (h : Memory.wf b.buf = true) (k : Nat) :
    memRead (b.load n d).buf k = if k < n then d.getD k 0 else memRead b.buf k :=
  memRead_memFill _ h k n hn

theorem freeBytes_getD (draw : Nat) {k : Nat} (hk : k < maxLen) : (freeBytes draw).getD k 0 = freeBufferByte draw k := by
  simp [freeBytes, hk, List.getD_eq_getElem?_getD]

/-- CLEAR of a canonical buffer is the buffer at reset. -/
theorem clear_eq_reset {b : BitBuffer} (h : Memory.wf b.buf = true) : b.clear = resetBuffer := by
  have hw : Memory.wf (memFill (fun _ => (0 : Byte)) b.buf maxLen) = true := memFill_wf _ h _ le_rfl
  have h0 : memFill (fun _ => (0 : Byte)) b.buf maxLen = [] := by
    refine eq_nil_of_memRead hw (fun k => ?_)
    rw [memRead_memFill _ h k _ le_rfl]
    split
    · rfl
    · exact memRead_of_ge h (by omega)
  show (⟨memFill (fun _ => (0 : Byte)) b.buf maxLen, 0, 0⟩ : BitBuffer) = ⟨[], 0, 0⟩
  rw [h0]

theorem snapshotBytes_getD (b : BitBuffer) {k : Nat} (hk : k < 16) :
    b.snapshotBytes.getD k 0 = if k < b.byte.toNat then memRead b.buf k else 0 := by
  simp [BitBuffer.snapshotBytes, maxLen, hk, List.getD_eq_getElem?_getD]

end Sys2Proof.Machine
end

