-- ==== Sys2Proof/Laws/State.lean ====
section
/-! SUPPORT. One lemma per field per update of State, true by rfl: no later proof unfolds a record update. -/

namespace Sys2Proof.Machine

/-! ### beginStep -/

@[simp] theorem beginStep_state (s : State) : (s.beginStep).state = s.state := rfl
@[simp] theorem beginStep_laddr (s : State) : (s.beginStep).laddr = s.laddr := rfl
@[simp] theorem beginStep_gpioOut (s : State) : (s.beginStep).gpioOut = s.gpioOut := rfl
@[simp] theorem beginStep_armEdge (s : State) : (s.beginStep).armEdge = s.armEdge := rfl
@[simp] theorem beginStep_armTv (s : State) : (s.beginStep).armTv = s.armTv := rfl
@[simp] theorem beginStep_armTmo (s : State) : (s.beginStep).armTmo = s.armTmo := rfl
@[simp] theorem beginStep_rx (s : State) : (s.beginStep).rx = s.rx := rfl
@[simp] theorem beginStep_tx (s : State) : (s.beginStep).tx = s.tx := rfl
@[simp] theorem beginStep_cfg (s : State) : (s.beginStep).cfg = s.cfg := rfl
@[simp] theorem beginStep_freeDraws (s : State) : (s.beginStep).freeDraws = s.freeDraws := rfl
@[simp] theorem beginStep_inputs (s : State) : (s.beginStep).inputs = s.inputs := rfl
@[simp] theorem beginStep_out (s : State) : (s.beginStep).out = noOut := rfl
@[simp] theorem beginStep_selResult (s : State) : (s.beginStep).selResult = none := rfl
@[simp] theorem beginStep_abortCause (s : State) : (s.beginStep).abortCause = none := rfl
@[simp] theorem beginStep_refusedMark (s : State) : (s.beginStep).refusedMark = s.refusedMark := rfl

/-! ### drive -/

@[simp] theorem drive_state (v : Level) (s : State) : (s.drive v).state = s.state := rfl
@[simp] theorem drive_laddr (v : Level) (s : State) : (s.drive v).laddr = s.laddr := rfl
@[simp] theorem drive_gpioOut (v : Level) (s : State) : (s.drive v).gpioOut = v := rfl
@[simp] theorem drive_armEdge (v : Level) (s : State) : (s.drive v).armEdge = s.armEdge := rfl
@[simp] theorem drive_armTv (v : Level) (s : State) : (s.drive v).armTv = s.armTv := rfl
@[simp] theorem drive_armTmo (v : Level) (s : State) : (s.drive v).armTmo = s.armTmo := rfl
@[simp] theorem drive_rx (v : Level) (s : State) : (s.drive v).rx = s.rx := rfl
@[simp] theorem drive_tx (v : Level) (s : State) : (s.drive v).tx = s.tx := rfl
@[simp] theorem drive_cfg (v : Level) (s : State) : (s.drive v).cfg = s.cfg := rfl
@[simp] theorem drive_freeDraws (v : Level) (s : State) : (s.drive v).freeDraws = s.freeDraws := rfl
@[simp] theorem drive_inputs (v : Level) (s : State) : (s.drive v).inputs = s.inputs := rfl
@[simp] theorem drive_out (v : Level) (s : State) : (s.drive v).out = { s.out with gpio := some v } := rfl
@[simp] theorem drive_selResult (v : Level) (s : State) : (s.drive v).selResult = s.selResult := rfl
@[simp] theorem drive_abortCause (v : Level) (s : State) : (s.drive v).abortCause = s.abortCause := rfl
@[simp] theorem drive_refusedMark (v : Level) (s : State) : (s.drive v).refusedMark = s.refusedMark := rfl

/-! ### arm -/

@[simp] theorem arm_state (e : Edge) (t : Option Tick) (s : State) : (s.arm e t).state = s.state := rfl
@[simp] theorem arm_laddr (e : Edge) (t : Option Tick) (s : State) : (s.arm e t).laddr = s.laddr := rfl
@[simp] theorem arm_gpioOut (e : Edge) (t : Option Tick) (s : State) : (s.arm e t).gpioOut = s.gpioOut := rfl
@[simp] theorem arm_armEdge (e : Edge) (t : Option Tick) (s : State) : (s.arm e t).armEdge = e := rfl
@[simp] theorem arm_armTv (e : Edge) (t : Option Tick) (s : State) : (s.arm e t).armTv = t.isSome := rfl
@[simp] theorem arm_armTmo (e : Edge) (t : Option Tick) (s : State) : (s.arm e t).armTmo = t.getD 0 := rfl
@[simp] theorem arm_rx (e : Edge) (t : Option Tick) (s : State) : (s.arm e t).rx = s.rx := rfl
@[simp] theorem arm_tx (e : Edge) (t : Option Tick) (s : State) : (s.arm e t).tx = s.tx := rfl
@[simp] theorem arm_cfg (e : Edge) (t : Option Tick) (s : State) : (s.arm e t).cfg = s.cfg := rfl
@[simp] theorem arm_freeDraws (e : Edge) (t : Option Tick) (s : State) : (s.arm e t).freeDraws = s.freeDraws := rfl
@[simp] theorem arm_inputs (e : Edge) (t : Option Tick) (s : State) : (s.arm e t).inputs = s.inputs := rfl
@[simp] theorem arm_out (e : Edge) (t : Option Tick) (s : State) : (s.arm e t).out = { s.out with arm := some (e, t) } := rfl
@[simp] theorem arm_selResult (e : Edge) (t : Option Tick) (s : State) : (s.arm e t).selResult = s.selResult := rfl
@[simp] theorem arm_abortCause (e : Edge) (t : Option Tick) (s : State) : (s.arm e t).abortCause = s.abortCause := rfl
@[simp] theorem arm_refusedMark (e : Edge) (t : Option Tick) (s : State) : (s.arm e t).refusedMark = s.refusedMark := rfl

/-! ### emit -/

@[simp] theorem emit_state (n : Notif) (s : State) : (s.emit n).state = s.state := rfl
@[simp] theorem emit_laddr (n : Notif) (s : State) : (s.emit n).laddr = s.laddr := rfl
@[simp] theorem emit_gpioOut (n : Notif) (s : State) : (s.emit n).gpioOut = s.gpioOut := rfl
@[simp] theorem emit_armEdge (n : Notif) (s : State) : (s.emit n).armEdge = s.armEdge := rfl
@[simp] theorem emit_armTv (n : Notif) (s : State) : (s.emit n).armTv = s.armTv := rfl
@[simp] theorem emit_armTmo (n : Notif) (s : State) : (s.emit n).armTmo = s.armTmo := rfl
@[simp] theorem emit_rx (n : Notif) (s : State) : (s.emit n).rx = s.rx := rfl
@[simp] theorem emit_tx (n : Notif) (s : State) : (s.emit n).tx = s.tx := rfl
@[simp] theorem emit_cfg (n : Notif) (s : State) : (s.emit n).cfg = s.cfg := rfl
@[simp] theorem emit_freeDraws (n : Notif) (s : State) : (s.emit n).freeDraws = s.freeDraws := rfl
@[simp] theorem emit_inputs (n : Notif) (s : State) : (s.emit n).inputs = s.inputs := rfl
@[simp] theorem emit_out (n : Notif) (s : State) : (s.emit n).out = { s.out with notify := some n } := rfl
@[simp] theorem emit_selResult (n : Notif) (s : State) : (s.emit n).selResult = s.selResult := rfl
@[simp] theorem emit_abortCause (n : Notif) (s : State) : (s.emit n).abortCause = s.abortCause := rfl
@[simp] theorem emit_refusedMark (n : Notif) (s : State) : (s.emit n).refusedMark = s.refusedMark := rfl

/-! ### reply -/

@[simp] theorem reply_state (r : Result) (s : State) : (s.reply r).state = s.state := rfl
@[simp] theorem reply_laddr (r : Result) (s : State) : (s.reply r).laddr = s.laddr := rfl
@[simp] theorem reply_gpioOut (r : Result) (s : State) : (s.reply r).gpioOut = s.gpioOut := rfl
@[simp] theorem reply_armEdge (r : Result) (s : State) : (s.reply r).armEdge = s.armEdge := rfl
@[simp] theorem reply_armTv (r : Result) (s : State) : (s.reply r).armTv = s.armTv := rfl
@[simp] theorem reply_armTmo (r : Result) (s : State) : (s.reply r).armTmo = s.armTmo := rfl
@[simp] theorem reply_rx (r : Result) (s : State) : (s.reply r).rx = s.rx := rfl
@[simp] theorem reply_tx (r : Result) (s : State) : (s.reply r).tx = s.tx := rfl
@[simp] theorem reply_cfg (r : Result) (s : State) : (s.reply r).cfg = s.cfg := rfl
@[simp] theorem reply_freeDraws (r : Result) (s : State) : (s.reply r).freeDraws = s.freeDraws := rfl
@[simp] theorem reply_inputs (r : Result) (s : State) : (s.reply r).inputs = s.inputs := rfl
@[simp] theorem reply_out (r : Result) (s : State) : (s.reply r).out = { s.out with result := some r } := rfl
@[simp] theorem reply_selResult (r : Result) (s : State) : (s.reply r).selResult = s.selResult := rfl
@[simp] theorem reply_abortCause (r : Result) (s : State) : (s.reply r).abortCause = s.abortCause := rfl
@[simp] theorem reply_refusedMark (r : Result) (s : State) : (s.reply r).refusedMark = s.refusedMark := rfl

/-! ### giveResult -/

@[simp] theorem giveResult_state (r : SelResult) (s : State) : (s.giveResult r).state = s.state := rfl
@[simp] theorem giveResult_laddr (r : SelResult) (s : State) : (s.giveResult r).laddr = s.laddr := rfl
@[simp] theorem giveResult_gpioOut (r : SelResult) (s : State) : (s.giveResult r).gpioOut = s.gpioOut := rfl
@[simp] theorem giveResult_armEdge (r : SelResult) (s : State) : (s.giveResult r).armEdge = s.armEdge := rfl
@[simp] theorem giveResult_armTv (r : SelResult) (s : State) : (s.giveResult r).armTv = s.armTv := rfl
@[simp] theorem giveResult_armTmo (r : SelResult) (s : State) : (s.giveResult r).armTmo = s.armTmo := rfl
@[simp] theorem giveResult_rx (r : SelResult) (s : State) : (s.giveResult r).rx = s.rx := rfl
@[simp] theorem giveResult_tx (r : SelResult) (s : State) : (s.giveResult r).tx = s.tx := rfl
@[simp] theorem giveResult_cfg (r : SelResult) (s : State) : (s.giveResult r).cfg = s.cfg := rfl
@[simp] theorem giveResult_freeDraws (r : SelResult) (s : State) : (s.giveResult r).freeDraws = s.freeDraws := rfl
@[simp] theorem giveResult_inputs (r : SelResult) (s : State) : (s.giveResult r).inputs = s.inputs := rfl
@[simp] theorem giveResult_out (r : SelResult) (s : State) : (s.giveResult r).out = s.out := rfl
@[simp] theorem giveResult_selResult (r : SelResult) (s : State) : (s.giveResult r).selResult = some r := rfl
@[simp] theorem giveResult_abortCause (r : SelResult) (s : State) : (s.giveResult r).abortCause = s.abortCause := rfl
@[simp] theorem giveResult_refusedMark (r : SelResult) (s : State) : (s.giveResult r).refusedMark = s.refusedMark := rfl

/-! ### markRefused -/

@[simp] theorem markRefused_state (w : RefusedInput) (s : State) : (s.markRefused w).state = s.state := rfl
@[simp] theorem markRefused_laddr (w : RefusedInput) (s : State) : (s.markRefused w).laddr = s.laddr := rfl
@[simp] theorem markRefused_gpioOut (w : RefusedInput) (s : State) : (s.markRefused w).gpioOut = s.gpioOut := rfl
@[simp] theorem markRefused_armEdge (w : RefusedInput) (s : State) : (s.markRefused w).armEdge = s.armEdge := rfl
@[simp] theorem markRefused_armTv (w : RefusedInput) (s : State) : (s.markRefused w).armTv = s.armTv := rfl
@[simp] theorem markRefused_armTmo (w : RefusedInput) (s : State) : (s.markRefused w).armTmo = s.armTmo := rfl
@[simp] theorem markRefused_rx (w : RefusedInput) (s : State) : (s.markRefused w).rx = s.rx := rfl
@[simp] theorem markRefused_tx (w : RefusedInput) (s : State) : (s.markRefused w).tx = s.tx := rfl
@[simp] theorem markRefused_cfg (w : RefusedInput) (s : State) : (s.markRefused w).cfg = s.cfg := rfl
@[simp] theorem markRefused_freeDraws (w : RefusedInput) (s : State) : (s.markRefused w).freeDraws = s.freeDraws := rfl
@[simp] theorem markRefused_inputs (w : RefusedInput) (s : State) : (s.markRefused w).inputs = s.inputs := rfl
@[simp] theorem markRefused_out (w : RefusedInput) (s : State) : (s.markRefused w).out = s.out := rfl
@[simp] theorem markRefused_selResult (w : RefusedInput) (s : State) : (s.markRefused w).selResult = s.selResult := rfl
@[simp] theorem markRefused_abortCause (w : RefusedInput) (s : State) : (s.markRefused w).abortCause = s.abortCause := rfl
@[simp] theorem markRefused_refusedMark (w : RefusedInput) (s : State) : (s.markRefused w).refusedMark = s.refusedMark.or (some w) := rfl

/-! ### mapRx -/

@[simp] theorem mapRx_state (f : RxCtx → RxCtx) (s : State) : (s.mapRx f).state = s.state := rfl
@[simp] theorem mapRx_laddr (f : RxCtx → RxCtx) (s : State) : (s.mapRx f).laddr = s.laddr := rfl
@[simp] theorem mapRx_gpioOut (f : RxCtx → RxCtx) (s : State) : (s.mapRx f).gpioOut = s.gpioOut := rfl
@[simp] theorem mapRx_armEdge (f : RxCtx → RxCtx) (s : State) : (s.mapRx f).armEdge = s.armEdge := rfl
@[simp] theorem mapRx_armTv (f : RxCtx → RxCtx) (s : State) : (s.mapRx f).armTv = s.armTv := rfl
@[simp] theorem mapRx_armTmo (f : RxCtx → RxCtx) (s : State) : (s.mapRx f).armTmo = s.armTmo := rfl
@[simp] theorem mapRx_rx (f : RxCtx → RxCtx) (s : State) : (s.mapRx f).rx = f s.rx := rfl
@[simp] theorem mapRx_tx (f : RxCtx → RxCtx) (s : State) : (s.mapRx f).tx = s.tx := rfl
@[simp] theorem mapRx_cfg (f : RxCtx → RxCtx) (s : State) : (s.mapRx f).cfg = s.cfg := rfl
@[simp] theorem mapRx_freeDraws (f : RxCtx → RxCtx) (s : State) : (s.mapRx f).freeDraws = s.freeDraws := rfl
@[simp] theorem mapRx_inputs (f : RxCtx → RxCtx) (s : State) : (s.mapRx f).inputs = s.inputs := rfl
@[simp] theorem mapRx_out (f : RxCtx → RxCtx) (s : State) : (s.mapRx f).out = s.out := rfl
@[simp] theorem mapRx_selResult (f : RxCtx → RxCtx) (s : State) : (s.mapRx f).selResult = s.selResult := rfl
@[simp] theorem mapRx_abortCause (f : RxCtx → RxCtx) (s : State) : (s.mapRx f).abortCause = s.abortCause := rfl
@[simp] theorem mapRx_refusedMark (f : RxCtx → RxCtx) (s : State) : (s.mapRx f).refusedMark = s.refusedMark := rfl

/-! ### mapTx -/

@[simp] theorem mapTx_state (f : TxCtx → TxCtx) (s : State) : (s.mapTx f).state = s.state := rfl
@[simp] theorem mapTx_laddr (f : TxCtx → TxCtx) (s : State) : (s.mapTx f).laddr = s.laddr := rfl
@[simp] theorem mapTx_gpioOut (f : TxCtx → TxCtx) (s : State) : (s.mapTx f).gpioOut = s.gpioOut := rfl
@[simp] theorem mapTx_armEdge (f : TxCtx → TxCtx) (s : State) : (s.mapTx f).armEdge = s.armEdge := rfl
@[simp] theorem mapTx_armTv (f : TxCtx → TxCtx) (s : State) : (s.mapTx f).armTv = s.armTv := rfl
@[simp] theorem mapTx_armTmo (f : TxCtx → TxCtx) (s : State) : (s.mapTx f).armTmo = s.armTmo := rfl
@[simp] theorem mapTx_rx (f : TxCtx → TxCtx) (s : State) : (s.mapTx f).rx = s.rx := rfl
@[simp] theorem mapTx_tx (f : TxCtx → TxCtx) (s : State) : (s.mapTx f).tx = f s.tx := rfl
@[simp] theorem mapTx_cfg (f : TxCtx → TxCtx) (s : State) : (s.mapTx f).cfg = s.cfg := rfl
@[simp] theorem mapTx_freeDraws (f : TxCtx → TxCtx) (s : State) : (s.mapTx f).freeDraws = s.freeDraws := rfl
@[simp] theorem mapTx_inputs (f : TxCtx → TxCtx) (s : State) : (s.mapTx f).inputs = s.inputs := rfl
@[simp] theorem mapTx_out (f : TxCtx → TxCtx) (s : State) : (s.mapTx f).out = s.out := rfl
@[simp] theorem mapTx_selResult (f : TxCtx → TxCtx) (s : State) : (s.mapTx f).selResult = s.selResult := rfl
@[simp] theorem mapTx_abortCause (f : TxCtx → TxCtx) (s : State) : (s.mapTx f).abortCause = s.abortCause := rfl
@[simp] theorem mapTx_refusedMark (f : TxCtx → TxCtx) (s : State) : (s.mapTx f).refusedMark = s.refusedMark := rfl

/-! ### withBuffer, buffer, putInput -/

@[simp] theorem withBuffer_state (s : State) (b : BufSel) (v : BitBuffer) : (s.withBuffer b v).state = s.state := by cases b <;> rfl
@[simp] theorem withBuffer_laddr (s : State) (b : BufSel) (v : BitBuffer) : (s.withBuffer b v).laddr = s.laddr := by cases b <;> rfl
@[simp] theorem withBuffer_gpioOut (s : State) (b : BufSel) (v : BitBuffer) : (s.withBuffer b v).gpioOut = s.gpioOut := by cases b <;> rfl
@[simp] theorem withBuffer_armEdge (s : State) (b : BufSel) (v : BitBuffer) : (s.withBuffer b v).armEdge = s.armEdge := by cases b <;> rfl
@[simp] theorem withBuffer_armTv (s : State) (b : BufSel) (v : BitBuffer) : (s.withBuffer b v).armTv = s.armTv := by cases b <;> rfl
@[simp] theorem withBuffer_armTmo (s : State) (b : BufSel) (v : BitBuffer) : (s.withBuffer b v).armTmo = s.armTmo := by cases b <;> rfl
@[simp] theorem withBuffer_cfg (s : State) (b : BufSel) (v : BitBuffer) : (s.withBuffer b v).cfg = s.cfg := by cases b <;> rfl
@[simp] theorem withBuffer_freeDraws (s : State) (b : BufSel) (v : BitBuffer) : (s.withBuffer b v).freeDraws = s.freeDraws := by cases b <;> rfl
@[simp] theorem withBuffer_inputs (s : State) (b : BufSel) (v : BitBuffer) : (s.withBuffer b v).inputs = s.inputs := by cases b <;> rfl
@[simp] theorem withBuffer_out (s : State) (b : BufSel) (v : BitBuffer) : (s.withBuffer b v).out = s.out := by cases b <;> rfl
@[simp] theorem withBuffer_selResult (s : State) (b : BufSel) (v : BitBuffer) : (s.withBuffer b v).selResult = s.selResult := by cases b <;> rfl
@[simp] theorem withBuffer_abortCause (s : State) (b : BufSel) (v : BitBuffer) : (s.withBuffer b v).abortCause = s.abortCause := by cases b <;> rfl
@[simp] theorem withBuffer_refusedMark (s : State) (b : BufSel) (v : BitBuffer) : (s.withBuffer b v).refusedMark = s.refusedMark := by cases b <;> rfl
@[simp] theorem withBuffer_rx_rx (s : State) (v : BitBuffer) : (s.withBuffer .rx v).rx = { s.rx with bb := v } := rfl
@[simp] theorem withBuffer_rx_tx (s : State) (v : BitBuffer) : (s.withBuffer .rx v).tx = s.tx := rfl
@[simp] theorem withBuffer_tx_rx (s : State) (v : BitBuffer) : (s.withBuffer .tx v).rx = s.rx := rfl
@[simp] theorem withBuffer_tx_tx (s : State) (v : BitBuffer) : (s.withBuffer .tx v).tx = { s.tx with bb := v } := rfl
@[simp] theorem buffer_rx (s : State) : s.buffer .rx = s.rx.bb := rfl
@[simp] theorem buffer_tx (s : State) : s.buffer .tx = s.tx.bb := rfl
@[simp] theorem buffer_withBuffer (s : State) (b : BufSel) (v : BitBuffer) : (s.withBuffer b v).buffer b = v := by
  cases b <;> rfl
@[simp] theorem buffer_beginStep (s : State) (b : BufSel) : s.beginStep.buffer b = s.buffer b := by cases b <;> rfl

@[simp] theorem putInput_state (x : Input) (s : State) : (putInput x s).state = s.state := rfl
@[simp] theorem putInput_laddr (x : Input) (s : State) : (putInput x s).laddr = s.laddr := rfl
@[simp] theorem putInput_gpioOut (x : Input) (s : State) : (putInput x s).gpioOut = s.gpioOut := rfl
@[simp] theorem putInput_armEdge (x : Input) (s : State) : (putInput x s).armEdge = s.armEdge := rfl
@[simp] theorem putInput_armTv (x : Input) (s : State) : (putInput x s).armTv = s.armTv := rfl
@[simp] theorem putInput_armTmo (x : Input) (s : State) : (putInput x s).armTmo = s.armTmo := rfl
@[simp] theorem putInput_rx (x : Input) (s : State) : (putInput x s).rx = s.rx := rfl
@[simp] theorem putInput_tx (x : Input) (s : State) : (putInput x s).tx = s.tx := rfl
@[simp] theorem putInput_cfg (x : Input) (s : State) : (putInput x s).cfg = s.cfg := rfl
@[simp] theorem putInput_freeDraws (x : Input) (s : State) : (putInput x s).freeDraws = s.freeDraws := rfl
@[simp] theorem putInput_inputs (x : Input) (s : State) : (putInput x s).inputs = x :: s.inputs := rfl
@[simp] theorem putInput_out (x : Input) (s : State) : (putInput x s).out = s.out := rfl
@[simp] theorem putInput_selResult (x : Input) (s : State) : (putInput x s).selResult = s.selResult := rfl
@[simp] theorem putInput_abortCause (x : Input) (s : State) : (putInput x s).abortCause = s.abortCause := rfl
@[simp] theorem putInput_refusedMark (x : Input) (s : State) : (putInput x s).refusedMark = s.refusedMark := rfl

/-! ### drawFree -/

@[simp] theorem drawFree_state (s : State) : (s.drawFree).state = s.state := rfl
@[simp] theorem drawFree_laddr (s : State) : (s.drawFree).laddr = s.laddr := rfl
@[simp] theorem drawFree_gpioOut (s : State) : (s.drawFree).gpioOut = s.gpioOut := rfl
@[simp] theorem drawFree_armEdge (s : State) : (s.drawFree).armEdge = s.armEdge := rfl
@[simp] theorem drawFree_armTv (s : State) : (s.drawFree).armTv = s.armTv := rfl
@[simp] theorem drawFree_armTmo (s : State) : (s.drawFree).armTmo = s.armTmo := rfl
@[simp] theorem drawFree_rx (s : State) : (s.drawFree).rx = s.rx := rfl
@[simp] theorem drawFree_tx (s : State) : (s.drawFree).tx = s.tx := rfl
@[simp] theorem drawFree_cfg (s : State) : (s.drawFree).cfg = s.cfg := rfl
@[simp] theorem drawFree_freeDraws (s : State) : (s.drawFree).freeDraws = s.freeDraws + 1 := rfl
@[simp] theorem drawFree_inputs (s : State) : (s.drawFree).inputs = s.inputs := rfl
@[simp] theorem drawFree_out (s : State) : (s.drawFree).out = s.out := rfl
@[simp] theorem drawFree_selResult (s : State) : (s.drawFree).selResult = s.selResult := rfl
@[simp] theorem drawFree_abortCause (s : State) : (s.drawFree).abortCause = s.abortCause := rfl
@[simp] theorem drawFree_refusedMark (s : State) : (s.drawFree).refusedMark = s.refusedMark := rfl
@[simp] theorem drawFree_buffer (s : State) (b : BufSel) : s.drawFree.buffer b = s.buffer b := by cases b <;> rfl
@[simp] theorem drawFree_readReg (s : State) (r : Reg) : s.drawFree.readReg r = s.readReg r := by cases r <;> rfl

/-! ### The record of a step -/

@[simp] theorem noOut_gpio : noOut.gpio = none := rfl
@[simp] theorem noOut_arm : noOut.arm = none := rfl
@[simp] theorem noOut_notify : noOut.notify = none := rfl
@[simp] theorem noOut_result : noOut.result = none := rfl

/-! ### Updates of the contexts -/

@[simp] theorem resetTxCursor_len (tx : TxCtx) : (resetTxCursor tx).len = tx.len := rfl
@[simp] theorem resetTxCursor_resends (tx : TxCtx) : (resetTxCursor tx).resends = tx.resends := rfl
@[simp] theorem resetTxCursor_ack (tx : TxCtx) : (resetTxCursor tx).ack = tx.ack := rfl
@[simp] theorem resetTxCursor_pi (tx : TxCtx) : (resetTxCursor tx).pi = tx.pi := rfl
@[simp] theorem resetTxCursor_bb (tx : TxCtx) : (resetTxCursor tx).bb = tx.bb.reset := rfl
@[simp] theorem idleRx_bb (rx : RxCtx) : (idleRx rx).bb = rx.bb.reset := rfl
@[simp] theorem idleRx_eom (rx : RxCtx) : (idleRx rx).eom = false := rfl
@[simp] theorem idleRx_bnack (rx : RxCtx) : (idleRx rx).bnack = false := rfl
@[simp] theorem idleRx_low (rx : RxCtx) : (idleRx rx).low = 0 := rfl
@[simp] theorem idleRx_dbc (rx : RxCtx) : (idleRx rx).dbc = rx.dbc := rfl
@[simp] theorem reset_buf (b : BitBuffer) : b.reset.buf = b.buf := rfl
@[simp] theorem reset_bit (b : BitBuffer) : b.reset.bit = 0 := rfl
@[simp] theorem reset_byte (b : BitBuffer) : b.reset.byte = 0 := rfl

end Sys2Proof.Machine
end

