-- ==== Sys2Proof/Laws/Entry.lean ====
section
/-! SUPPORT. Entering a state: what every entry action leaves alone, and what it writes (43_state_entry.md). -/

namespace Sys2Proof.Machine

/-! ### The entry of Idle -/

/-- With no frame pending the Idle entry resets, releases the line and waits for a falling edge (R225). -/
theorem enter_idle_of_eq (line : Option Level) (s : State) (h : s.tx.len = 0) :
    enter .idle line s = ((idleResets { s with state := .idle }).drive released).arm .falling none := by
  have h' : ¬ (idleResets { s with state := .idle }).tx.len ≠ 0 := by simp [idleResets, h]
  simp only [enter, entryAction, entryIdle, if_neg h']

/-- With a frame pending the Idle entry chains into TxFreeTime (R225, C17). -/
theorem enter_idle_of_ne (line : Option Level) (s : State) (h : s.tx.len ≠ 0) :
    enter .idle line s =
      entryTxFreeTime { idleResets { s with state := .idle } with state := .txFreeTime } := by
  have h' : (idleResets { s with state := .idle }).tx.len ≠ 0 := by simpa [idleResets] using h
  simp only [enter, entryAction, entryIdle, if_pos h']

/-! ### What no entry action writes -/

@[simp] theorem enter_cfg (p : PState) (line : Option Level) (s : State) : (enter p line s).cfg = s.cfg := by
  cases p <;> try rfl
  · by_cases h : s.tx.len = 0
    · rw [enter_idle_of_eq _ _ h]; rfl
    · rw [enter_idle_of_ne _ _ h]; rfl
  · simp only [enter, entryAction, entryRxAckLow]; split <;> rfl
  · simp only [enter, entryAction, entryRxAckFinish]; split <;> [(split <;> rfl); rfl]

@[simp] theorem enter_inputs (p : PState) (line : Option Level) (s : State) : (enter p line s).inputs = s.inputs := by
  cases p <;> try rfl
  · by_cases h : s.tx.len = 0
    · rw [enter_idle_of_eq _ _ h]; rfl
    · rw [enter_idle_of_ne _ _ h]; rfl
  · simp only [enter, entryAction, entryRxAckLow]; split <;> rfl
  · simp only [enter, entryAction, entryRxAckFinish]; split <;> [(split <;> rfl); rfl]

@[simp] theorem enter_freeDraws (p : PState) (line : Option Level) (s : State) : (enter p line s).freeDraws = s.freeDraws := by
  cases p <;> try rfl
  · by_cases h : s.tx.len = 0
    · rw [enter_idle_of_eq _ _ h]; rfl
    · rw [enter_idle_of_ne _ _ h]; rfl
  · simp only [enter, entryAction, entryRxAckLow]; split <;> rfl
  · simp only [enter, entryAction, entryRxAckFinish]; split <;> [(split <;> rfl); rfl]

@[simp] theorem enter_selResult (p : PState) (line : Option Level) (s : State) : (enter p line s).selResult = s.selResult := by
  cases p <;> try rfl
  · by_cases h : s.tx.len = 0
    · rw [enter_idle_of_eq _ _ h]; rfl
    · rw [enter_idle_of_ne _ _ h]; rfl
  · simp only [enter, entryAction, entryRxAckLow]; split <;> rfl
  · simp only [enter, entryAction, entryRxAckFinish]; split <;> [(split <;> rfl); rfl]

@[simp] theorem enter_abortCause (p : PState) (line : Option Level) (s : State) : (enter p line s).abortCause = s.abortCause := by
  cases p <;> try rfl
  · by_cases h : s.tx.len = 0
    · rw [enter_idle_of_eq _ _ h]; rfl
    · rw [enter_idle_of_ne _ _ h]; rfl
  · simp only [enter, entryAction, entryRxAckLow]; split <;> rfl
  · simp only [enter, entryAction, entryRxAckFinish]; split <;> [(split <;> rfl); rfl]

@[simp] theorem enter_refusedMark (p : PState) (line : Option Level) (s : State) : (enter p line s).refusedMark = s.refusedMark := by
  cases p <;> try rfl
  · by_cases h : s.tx.len = 0
    · rw [enter_idle_of_eq _ _ h]; rfl
    · rw [enter_idle_of_ne _ _ h]; rfl
  · simp only [enter, entryAction, entryRxAckLow]; split <;> rfl
  · simp only [enter, entryAction, entryRxAckFinish]; split <;> [(split <;> rfl); rfl]

@[simp] theorem enter_laddr (p : PState) (line : Option Level) (s : State) : (enter p line s).laddr = s.laddr := by
  cases p <;> try rfl
  · by_cases h : s.tx.len = 0
    · rw [enter_idle_of_eq _ _ h]; rfl
    · rw [enter_idle_of_ne _ _ h]; rfl
  · simp only [enter, entryAction, entryRxAckLow]; split <;> rfl
  · simp only [enter, entryAction, entryRxAckFinish]; split <;> [(split <;> rfl); rfl]

@[simp] theorem enter_out_result (p : PState) (line : Option Level) (s : State) :
    (enter p line s).out.result = s.out.result := by
  cases p <;> try rfl
  · by_cases h : s.tx.len = 0
    · rw [enter_idle_of_eq _ _ h]; rfl
    · rw [enter_idle_of_ne _ _ h]; rfl
  · simp only [enter, entryAction, entryRxAckLow]; split <;> rfl
  · simp only [enter, entryAction, entryRxAckFinish]; split <;> [(split <;> rfl); rfl]

/-- Only the RxAckFinish entry raises a notification (R222). -/
theorem enter_out_notify (p : PState) (line : Option Level) (s : State) (hp : p ≠ .rxAckFinish) :
    (enter p line s).out.notify = s.out.notify := by
  cases p <;> try rfl
  · by_cases h : s.tx.len = 0
    · rw [enter_idle_of_eq _ _ h]; rfl
    · rw [enter_idle_of_ne _ _ h]; rfl
  · simp only [enter, entryAction, entryRxAckLow]; split <;> rfl
  · exact absurd rfl hp

/-! ### STATE, the length and the resend count -/

/-- The state entered is the one named, or TxFreeTime where the Idle entry chains (R220, R225). -/
theorem enter_state (p : PState) (line : Option Level) (s : State) :
    (enter p line s).state = if p = .idle ∧ s.tx.len ≠ 0 then .txFreeTime else p := by
  cases p <;> try rfl
  · by_cases h : s.tx.len = 0
    · rw [enter_idle_of_eq _ _ h, if_neg (fun hc => hc.2 h)]; rfl
    · rw [enter_idle_of_ne _ _ h, if_pos ⟨rfl, h⟩]; rfl
  · simp only [enter, entryAction, entryRxAckLow]; split <;> rfl
  · simp only [enter, entryAction, entryRxAckFinish]; split <;> [(split <;> rfl); rfl]

/-- The receive context an entry leaves: cleared by Disabled, reset by Idle, one register written by RxDebounce and by
RxAckVerify, and unchanged by every other entry. -/
theorem enter_rx (p : PState) (line : Option Level) (s : State) :
    (enter p line s).rx =
      match p with
      | .disabled => clearRx s.rx
      | .idle => idleRx s.rx
      | .rxDebounce => { s.rx with dbc := quietCount s.cfg s.rx.dbc }
      | .rxAckVerify => { s.rx with bnack := bnackFlag line s.rx.bb }
      | _ => s.rx := by
  cases p <;> try rfl
  · by_cases h : s.tx.len = 0
    · rw [enter_idle_of_eq _ _ h]; rfl
    · rw [enter_idle_of_ne _ _ h]; rfl
  · simp only [enter, entryAction, entryRxAckLow]; split <;> rfl
  · simp only [enter, entryAction, entryRxAckFinish]; split <;> [(split <;> rfl); rfl]

/-- The transmit context an entry leaves: cleared by Disabled, its cursor reset by Idle and TxStartLow, TX_PI written by
TxStartLow and RxStartLow, TX_ACK by TxAckVerify, and unchanged by every other entry. -/
theorem enter_tx (p : PState) (line : Option Level) (s : State) :
    (enter p line s).tx =
      match p with
      | .disabled => clearTx s.tx
      | .idle => resetTxCursor s.tx
      | .txStartLow => resetTxCursor { s.tx with pi := true }
      | .txAckVerify => { s.tx with ack := ackFlag line s.tx.bb }
      | .rxStartLow => { s.tx with pi := false }
      | _ => s.tx := by
  cases p <;> try rfl
  · by_cases h : s.tx.len = 0
    · rw [enter_idle_of_eq _ _ h]; rfl
    · rw [enter_idle_of_ne _ _ h]; rfl
  · simp only [enter, entryAction, entryRxAckLow]; split <;> rfl
  · simp only [enter, entryAction, entryRxAckFinish]; split <;> [(split <;> rfl); rfl]

/-- Only the Disabled entry writes TX_LEN and TX_RESENDS (R224). -/
theorem enter_tx_len (p : PState) (line : Option Level) (s : State) (hp : p ≠ .disabled) :
    (enter p line s).tx.len = s.tx.len ∧ (enter p line s).tx.resends = s.tx.resends := by
  rw [enter_tx]
  cases p <;> first | exact absurd rfl hp | exact ⟨rfl, rfl⟩

/-- Only the Disabled entry writes the bytes of the buffers (R142). -/
theorem enter_bufs (p : PState) (line : Option Level) (s : State) (hp : p ≠ .disabled) :
    (enter p line s).rx.bb.buf = s.rx.bb.buf ∧ (enter p line s).tx.bb.buf = s.tx.bb.buf := by
  rw [enter_rx, enter_tx]
  cases p <;> first | exact absurd rfl hp | exact ⟨rfl, rfl⟩

/-- Entering a state other than the two ACK verify states does not read LINE (R220). -/
theorem enter_line (p : PState) (l l' : Option Level) (s : State) (h1 : p ≠ .txAckVerify) (h2 : p ≠ .rxAckVerify) :
    enter p l s = enter p l' s := by
  cases p <;> first | rfl | exact absurd rfl h1 | exact absurd rfl h2

/-! ### Aborts -/

/-- An abort enters Idle and records its cause as a ghost value (R350). -/
theorem raiseAbort_state (c : AbortCause) (s : State) :
    (raiseAbort c s).state = if s.tx.len ≠ 0 then .txFreeTime else .idle := by
  rw [raiseAbort, enter_state]
  by_cases h : s.tx.len = 0 <;> simp [h]

/-- An abort resets the receive context and the transmit cursor and touches nothing else of the two contexts (R311 (e)). -/
theorem raiseAbort_contexts (c : AbortCause) (s : State) :
    (raiseAbort c s).rx = idleRx s.rx ∧ (raiseAbort c s).tx = resetTxCursor s.tx := by
  constructor
  · rw [raiseAbort, enter_rx]
  · rw [raiseAbort, enter_tx]

@[simp] theorem raiseAbort_abortCause (c : AbortCause) (s : State) : (raiseAbort c s).abortCause = some c := by
  rw [raiseAbort, enter_abortCause]
@[simp] theorem raiseAbort_cfg (c : AbortCause) (s : State) : (raiseAbort c s).cfg = s.cfg := by
  rw [raiseAbort, enter_cfg]
@[simp] theorem raiseAbort_inputs (c : AbortCause) (s : State) : (raiseAbort c s).inputs = s.inputs := by
  rw [raiseAbort, enter_inputs]
@[simp] theorem raiseAbort_freeDraws (c : AbortCause) (s : State) : (raiseAbort c s).freeDraws = s.freeDraws := by
  rw [raiseAbort, enter_freeDraws]
@[simp] theorem raiseAbort_laddr (c : AbortCause) (s : State) : (raiseAbort c s).laddr = s.laddr := by
  rw [raiseAbort, enter_laddr]
@[simp] theorem raiseAbort_refusedMark (c : AbortCause) (s : State) : (raiseAbort c s).refusedMark = s.refusedMark := by
  rw [raiseAbort, enter_refusedMark]
@[simp] theorem raiseAbort_selResult (c : AbortCause) (s : State) : (raiseAbort c s).selResult = s.selResult := by
  rw [raiseAbort, enter_selResult]
@[simp] theorem raiseAbort_out_notify (c : AbortCause) (s : State) :
    (raiseAbort c s).out.notify = s.out.notify := by
  rw [raiseAbort, enter_out_notify _ _ _ (by decide)]
@[simp] theorem raiseAbort_out_result (c : AbortCause) (s : State) :
    (raiseAbort c s).out.result = s.out.result := by
  rw [raiseAbort, enter_out_result]

end Sys2Proof.Machine
end

