-- ==== Sys2Proof/Laws/Exec.lean ====
section
/-! SUPPORT. What every operation and every step can do: the inversion of `exec` and of `step`, and the fields no operation
writes. -/

namespace Sys2Proof.Machine

/-! ### The transitions keep the run's own fields -/

@[simp] theorem receiveBitLow_cfg (n : PState) (t : Tick) (s : State) : (receiveBitLow n t s).cfg = s.cfg := by
  unfold receiveBitLow; split <;> simp
@[simp] theorem receiveEomLow_cfg (t : Tick) (s : State) : (receiveEomLow t s).cfg = s.cfg := by
  unfold receiveEomLow; split <;> simp
@[simp] theorem receiveBitHigh_cfg (b : BitVec 3) (l m : PState) (t : Tick) (s : State) :
    (receiveBitHigh b l m t s).cfg = s.cfg := by
  unfold receiveBitHigh; split <;> simp
@[simp] theorem receiveEomHigh_cfg (t : Tick) (s : State) : (receiveEomHigh t s).cfg = s.cfg := by
  unfold receiveEomHigh; split <;> simp
@[simp] theorem transmitBitHigh_cfg (b : BitVec 3) (l m : PState) (line : Level) (s : State) :
    (transmitBitHigh b l m line s).cfg = s.cfg := by
  simp [transmitBitHigh]
@[simp] theorem finishSend_cfg (n : Notif) (line : Level) (s : State) : (finishSend n line s).cfg = s.cfg := by
  simp [finishSend]
@[simp] theorem debounceReset_cfg (s : State) : (debounceReset s).cfg = s.cfg := rfl
@[simp] theorem captureIn_cfg (p : PState) (t : Tick) (s : State) : (captureIn p t s).cfg = s.cfg := by
  cases p <;> simp [captureIn, captureTxFreeTime, captureRxStartLow, captureRxStartHigh] <;> split <;> simp
@[simp] theorem timeoutIn_cfg (p : PState) (line : Level) (s : State) : (timeoutIn p line s).cfg = s.cfg := by
  cases p <;> simp [timeoutIn, timeoutTxAckVerify, timeoutRxAckVerify, timeoutRxAckFinish] <;> split <;>
    first | simp | (split <;> simp)

@[simp] theorem receiveBitLow_inputs (n : PState) (t : Tick) (s : State) : (receiveBitLow n t s).inputs = s.inputs := by
  unfold receiveBitLow; split <;> simp
@[simp] theorem receiveBitLow_freeDraws (n : PState) (t : Tick) (s : State) : (receiveBitLow n t s).freeDraws = s.freeDraws := by
  unfold receiveBitLow; split <;> simp
@[simp] theorem receiveEomLow_inputs (t : Tick) (s : State) : (receiveEomLow t s).inputs = s.inputs := by
  unfold receiveEomLow; split <;> simp
@[simp] theorem receiveEomLow_freeDraws (t : Tick) (s : State) : (receiveEomLow t s).freeDraws = s.freeDraws := by
  unfold receiveEomLow; split <;> simp
@[simp] theorem receiveBitHigh_inputs (b : BitVec 3) (l m : PState) (t : Tick) (s : State) :
    (receiveBitHigh b l m t s).inputs = s.inputs := by
  unfold receiveBitHigh; split <;> simp
@[simp] theorem receiveBitHigh_freeDraws (b : BitVec 3) (l m : PState) (t : Tick) (s : State) :
    (receiveBitHigh b l m t s).freeDraws = s.freeDraws := by
  unfold receiveBitHigh; split <;> simp
@[simp] theorem receiveEomHigh_inputs (t : Tick) (s : State) : (receiveEomHigh t s).inputs = s.inputs := by
  unfold receiveEomHigh; split <;> simp
@[simp] theorem receiveEomHigh_freeDraws (t : Tick) (s : State) : (receiveEomHigh t s).freeDraws = s.freeDraws := by
  unfold receiveEomHigh; split <;> simp
@[simp] theorem transmitBitHigh_inputs (b : BitVec 3) (l m : PState) (line : Level) (s : State) :
    (transmitBitHigh b l m line s).inputs = s.inputs := by
  simp [transmitBitHigh]
@[simp] theorem transmitBitHigh_freeDraws (b : BitVec 3) (l m : PState) (line : Level) (s : State) :
    (transmitBitHigh b l m line s).freeDraws = s.freeDraws := by
  simp [transmitBitHigh]
@[simp] theorem finishSend_inputs (n : Notif) (line : Level) (s : State) : (finishSend n line s).inputs = s.inputs := by
  simp [finishSend]
@[simp] theorem finishSend_freeDraws (n : Notif) (line : Level) (s : State) : (finishSend n line s).freeDraws = s.freeDraws := by
  simp [finishSend]
@[simp] theorem debounceReset_inputs (s : State) : (debounceReset s).inputs = s.inputs := rfl
@[simp] theorem debounceReset_freeDraws (s : State) : (debounceReset s).freeDraws = s.freeDraws := rfl
@[simp] theorem captureIn_inputs (p : PState) (t : Tick) (s : State) : (captureIn p t s).inputs = s.inputs := by
  cases p <;> simp [captureIn, captureTxFreeTime, captureRxStartLow, captureRxStartHigh] <;> split <;> simp
@[simp] theorem captureIn_freeDraws (p : PState) (t : Tick) (s : State) : (captureIn p t s).freeDraws = s.freeDraws := by
  cases p <;> simp [captureIn, captureTxFreeTime, captureRxStartLow, captureRxStartHigh] <;> split <;> simp
@[simp] theorem timeoutIn_inputs (p : PState) (line : Level) (s : State) : (timeoutIn p line s).inputs = s.inputs := by
  cases p <;> simp [timeoutIn, timeoutTxAckVerify, timeoutRxAckVerify, timeoutRxAckFinish] <;> split <;>
    first | simp | (split <;> simp)
@[simp] theorem timeoutIn_freeDraws (p : PState) (line : Level) (s : State) : (timeoutIn p line s).freeDraws = s.freeDraws := by
  cases p <;> simp [timeoutIn, timeoutTxAckVerify, timeoutRxAckVerify, timeoutRxAckFinish] <;> split <;>
    first | simp | (split <;> simp)

@[simp] theorem receiveBitLow_refusedMark (n : PState) (t : Tick) (s : State) : (receiveBitLow n t s).refusedMark = s.refusedMark := by
  unfold receiveBitLow; split <;> simp
@[simp] theorem receiveEomLow_refusedMark (t : Tick) (s : State) : (receiveEomLow t s).refusedMark = s.refusedMark := by
  unfold receiveEomLow; split <;> simp
@[simp] theorem receiveBitHigh_refusedMark (b : BitVec 3) (l m : PState) (t : Tick) (s : State) :
    (receiveBitHigh b l m t s).refusedMark = s.refusedMark := by
  unfold receiveBitHigh; split <;> simp
@[simp] theorem receiveEomHigh_refusedMark (t : Tick) (s : State) : (receiveEomHigh t s).refusedMark = s.refusedMark := by
  unfold receiveEomHigh; split <;> simp
@[simp] theorem transmitBitHigh_refusedMark (b : BitVec 3) (l m : PState) (line : Level) (s : State) :
    (transmitBitHigh b l m line s).refusedMark = s.refusedMark := by
  simp [transmitBitHigh]
@[simp] theorem finishSend_refusedMark (n : Notif) (line : Level) (s : State) : (finishSend n line s).refusedMark = s.refusedMark := by
  simp [finishSend]
@[simp] theorem debounceReset_refusedMark (s : State) : (debounceReset s).refusedMark = s.refusedMark := rfl
@[simp] theorem captureIn_refusedMark (p : PState) (t : Tick) (s : State) : (captureIn p t s).refusedMark = s.refusedMark := by
  cases p <;> simp [captureIn, captureTxFreeTime, captureRxStartLow, captureRxStartHigh] <;> split <;> simp
@[simp] theorem timeoutIn_refusedMark (p : PState) (line : Level) (s : State) : (timeoutIn p line s).refusedMark = s.refusedMark := by
  cases p <;> simp [timeoutIn, timeoutTxAckVerify, timeoutRxAckVerify, timeoutRxAckFinish] <;> split <;>
    first | simp | (split <;> simp)

@[simp] theorem receiveBitLow_laddr (n : PState) (t : Tick) (s : State) : (receiveBitLow n t s).laddr = s.laddr := by
  unfold receiveBitLow; split <;> simp
@[simp] theorem receiveEomLow_laddr (t : Tick) (s : State) : (receiveEomLow t s).laddr = s.laddr := by
  unfold receiveEomLow; split <;> simp
@[simp] theorem receiveBitHigh_laddr (b : BitVec 3) (l m : PState) (t : Tick) (s : State) :
    (receiveBitHigh b l m t s).laddr = s.laddr := by
  unfold receiveBitHigh; split <;> simp
@[simp] theorem receiveEomHigh_laddr (t : Tick) (s : State) : (receiveEomHigh t s).laddr = s.laddr := by
  unfold receiveEomHigh; split <;> simp
@[simp] theorem transmitBitHigh_laddr (b : BitVec 3) (l m : PState) (line : Level) (s : State) :
    (transmitBitHigh b l m line s).laddr = s.laddr := by
  simp [transmitBitHigh]
@[simp] theorem finishSend_laddr (n : Notif) (line : Level) (s : State) : (finishSend n line s).laddr = s.laddr := by
  simp [finishSend]
@[simp] theorem debounceReset_laddr (s : State) : (debounceReset s).laddr = s.laddr := rfl
@[simp] theorem captureIn_laddr (p : PState) (t : Tick) (s : State) : (captureIn p t s).laddr = s.laddr := by
  cases p <;> simp [captureIn, captureTxFreeTime, captureRxStartLow, captureRxStartHigh] <;> split <;> simp
@[simp] theorem timeoutIn_laddr (p : PState) (line : Level) (s : State) : (timeoutIn p line s).laddr = s.laddr := by
  cases p <;> simp [timeoutIn, timeoutTxAckVerify, timeoutRxAckVerify, timeoutRxAckFinish] <;> split <;>
    first | simp | (split <;> simp)

@[simp] theorem receiveBitLow_selResult (n : PState) (t : Tick) (s : State) : (receiveBitLow n t s).selResult = s.selResult := by
  unfold receiveBitLow; split <;> simp
@[simp] theorem receiveEomLow_selResult (t : Tick) (s : State) : (receiveEomLow t s).selResult = s.selResult := by
  unfold receiveEomLow; split <;> simp
@[simp] theorem receiveBitHigh_selResult (b : BitVec 3) (l m : PState) (t : Tick) (s : State) :
    (receiveBitHigh b l m t s).selResult = s.selResult := by
  unfold receiveBitHigh; split <;> simp
@[simp] theorem receiveEomHigh_selResult (t : Tick) (s : State) : (receiveEomHigh t s).selResult = s.selResult := by
  unfold receiveEomHigh; split <;> simp
@[simp] theorem transmitBitHigh_selResult (b : BitVec 3) (l m : PState) (line : Level) (s : State) :
    (transmitBitHigh b l m line s).selResult = s.selResult := by
  simp [transmitBitHigh]
@[simp] theorem finishSend_selResult (n : Notif) (line : Level) (s : State) : (finishSend n line s).selResult = s.selResult := by
  simp [finishSend]
@[simp] theorem debounceReset_selResult (s : State) : (debounceReset s).selResult = s.selResult := rfl
@[simp] theorem captureIn_selResult (p : PState) (t : Tick) (s : State) : (captureIn p t s).selResult = s.selResult := by
  cases p <;> simp [captureIn, captureTxFreeTime, captureRxStartLow, captureRxStartHigh] <;> split <;> simp
@[simp] theorem timeoutIn_selResult (p : PState) (line : Level) (s : State) : (timeoutIn p line s).selResult = s.selResult := by
  cases p <;> simp [timeoutIn, timeoutTxAckVerify, timeoutRxAckVerify, timeoutRxAckFinish] <;> split <;>
    first | simp | (split <;> simp)

/-! ### Operations -/

/-- A LOAD of at most 16 bytes (R147). -/
theorem execBbLoad_of_le (b : BufSel) {len : BitVec 5} (data : List Byte) (s : State) (h : len.toNat ≤ maxLen) :
    execBbLoad b len data s = .next (s.beginStep.withBuffer b ((s.buffer b).load len.toNat data)) := by
  rw [execBbLoad, if_pos h]

/-- A LOAD of more bytes than there are: the buffer's bytes are a free value, and one is drawn. -/
theorem execBbLoad_of_gt (b : BufSel) {len : BitVec 5} (data : List Byte) (s : State) (h : maxLen < len.toNat) :
    execBbLoad b len data s =
      .next (s.beginStep.withBuffer b ((s.buffer b).load maxLen (freeBytes s.freeDraws))).drawFree := by
  rw [execBbLoad, if_neg (Nat.not_le_of_lt h)]

/-- Every operation gives a next state, in every state and with every operand. -/
theorem exec_next (i : Instr) (s : State) : ∃ t, exec i s = .next t := by
  cases i with
  | evCapture elapsed =>
    simp only [exec, execEvCapture]
    split
    · exact ⟨_, rfl⟩
    · split <;> exact ⟨_, rfl⟩
  | evTimeout line =>
    simp only [exec, execEvTimeout]
    split <;> exact ⟨_, rfl⟩
  | _ => exact ⟨_, rfl⟩

/-- No operation writes the configuration or the input stream. -/
theorem exec_run {i : Instr} {s t : State} (h : exec i s = .next t) : t.cfg = s.cfg ∧ t.inputs = s.inputs := by
  cases i with
  | evCapture elapsed =>
    simp only [exec, execEvCapture] at h
    split at h
    · cases h; exact ⟨rfl, rfl⟩
    · split at h <;> cases h <;> constructor <;> simp [refuseInput]
  | evTimeout line =>
    simp only [exec, execEvTimeout] at h
    split at h <;> cases h <;> constructor <;> simp
  | cmdEnable => cases h; constructor <;> split <;> simp
  | cmdDisable => cases h; constructor <;> simp
  | cmdSetAddr addr => cases h; constructor <;> split <;> rfl
  | cmdSubmit len data =>
    cases h
    constructor <;> (repeat' split) <;> simp [acceptFrame]
  | bbLoad b len data => cases h; constructor <;> split <;> simp
  | bbReset b => cases h; constructor <;> simp
  | bbClear b => cases h; constructor <;> simp
  | bbSetBit b v => cases h; constructor <;> simp
  | bbIncBit b => cases h; constructor <;> simp
  | _ => cases h; exact ⟨rfl, rfl⟩

/-- Only a LOAD above 16 draws a free value, and it draws one. -/
theorem exec_freeDraws {i : Instr} {s t : State} (h : exec i s = .next t) :
    t.freeDraws = s.freeDraws ∨
      (t.freeDraws = s.freeDraws + 1 ∧ ∃ b len data, i = .bbLoad b len data ∧ maxLen < len.toNat) := by
  cases i with
  | evCapture elapsed =>
    simp only [exec, execEvCapture] at h
    left
    split at h
    · cases h; rfl
    · split at h <;> cases h <;> simp [refuseInput]
  | evTimeout line =>
    simp only [exec, execEvTimeout] at h
    left
    split at h <;> cases h <;> simp
  | cmdEnable => cases h; left; split <;> simp
  | cmdDisable => cases h; left; simp
  | cmdSetAddr addr => cases h; left; split <;> rfl
  | cmdSubmit len data =>
    cases h
    left
    (repeat' split) <;> simp [acceptFrame]
  | bbLoad b len data =>
    by_cases hle : len.toNat ≤ maxLen
    · rw [exec, execBbLoad_of_le b data s hle] at h
      cases h; left; simp
    · rw [exec, execBbLoad_of_gt b data s (Nat.lt_of_not_le hle)] at h
      cases h; right; exact ⟨by simp, b, len, data, rfl, Nat.lt_of_not_le hle⟩
  | bbReset b => cases h; left; simp
  | bbClear b => cases h; left; simp
  | bbSetBit b v => cases h; left; simp
  | bbIncBit b => cases h; left; simp
  | _ => cases h; exact Or.inl rfl

/-- An operation leaves the refused mark, but for a late capture, which sets it if it was not set (R108, R374). -/
theorem exec_refusedMark {i : Instr} {s t : State} (h : exec i s = .next t) :
    t.refusedMark = s.refusedMark ∨
      (t.refusedMark = s.refusedMark.or (some .lateCapture) ∧ ∃ e, i = .evCapture e ∧ isLateCapture e s = true) := by
  cases i with
  | evCapture elapsed =>
    simp only [exec, execEvCapture] at h
    split at h
    · cases h; exact Or.inl rfl
    · split at h
      · cases h; exact Or.inr ⟨rfl, _, rfl, by assumption⟩
      · cases h; exact Or.inl (by simp)
  | evTimeout line =>
    simp only [exec, execEvTimeout] at h
    split at h <;> cases h <;> left <;> simp
  | cmdEnable => cases h; left; split <;> simp
  | cmdDisable => cases h; left; simp
  | cmdSetAddr addr => cases h; left; split <;> rfl
  | cmdSubmit len data =>
    cases h
    left
    (repeat' split) <;> simp [acceptFrame]
  | bbLoad b len data => cases h; left; split <;> simp
  | bbReset b => cases h; left; simp
  | bbClear b => cases h; left; simp
  | bbSetBit b v => cases h; left; simp
  | bbIncBit b => cases h; left; simp
  | _ => cases h; exact Or.inl rfl

/-! ### Steps -/

/-- A step that runs the operation its input presents. -/
theorem step_of_decode {s : State} {x : Input} {rest : List Input} {i : Instr} (hc : cfgWf s.cfg = true)
    (hx : s.inputs = x :: rest) (hd : decode x = .ok i) : step s = exec i { s with inputs := rest } := by
  simp only [step, hc, fetchInput, hx, hd, if_true]

/-- A step whose input spells no operation leaves the mark and nothing else (R108). -/
theorem step_of_refused {s : State} {x : Input} {rest : List Input} {e : DecodeError} (hc : cfgWf s.cfg = true)
    (hx : s.inputs = x :: rest) (hd : decode x = .error e) :
    step s = .next (refuseInput (.encoding e) { s with inputs := rest }) := by
  simp only [step, hc, fetchInput, hx, hd, if_true]

/-- With no input the block waits. -/
theorem step_of_nil {s : State} (hc : cfgWf s.cfg = true) (hx : s.inputs = []) : step s = .next s := by
  simp only [step, hc, fetchInput, hx, if_true, waitForInput]

/-- Everything a step that gives a next state can be: a wait, an operation, or a refused input. -/
theorem step_cases {s t : State} (h : step s = .next t) :
    cfgWf s.cfg = true ∧
      ((s.inputs = [] ∧ t = s) ∨
        (∃ x rest i, s.inputs = x :: rest ∧ decode x = .ok i ∧ exec i { s with inputs := rest } = .next t) ∨
        (∃ x rest e, s.inputs = x :: rest ∧ decode x = .error e ∧
          t = refuseInput (.encoding e) { s with inputs := rest })) := by
  by_cases hc : cfgWf s.cfg = true
  · refine ⟨hc, ?_⟩
    cases hx : s.inputs with
    | nil =>
      rw [step_of_nil hc hx] at h
      cases h
      exact Or.inl ⟨rfl, rfl⟩
    | cons x rest =>
      cases hd : decode x with
      | ok i =>
        rw [step_of_decode hc hx hd] at h
        exact Or.inr (Or.inl ⟨x, rest, i, rfl, hd, h⟩)
      | error e =>
        rw [step_of_refused hc hx hd] at h
        cases h
        exact Or.inr (Or.inr ⟨x, rest, e, rfl, hd, rfl⟩)
  · simp [step, hc] at h

end Sys2Proof.Machine
end

