-- ==== Sys2Proof/Laws/Canonical.lean ====
section
/-! SUPPORT. Every operation keeps both frame buffers in canonical form, and so does State.reset; which registers can hold
an illegal value at all. -/

namespace Sys2Proof.Machine

/-- The canonical form depends on the two lists alone. -/
theorem buffersWf_of_eq {s t : State} (h : buffersWf s) (hr : t.rx.bb.buf = s.rx.bb.buf)
    (ht : t.tx.bb.buf = s.tx.bb.buf) : buffersWf t := by
  unfold buffersWf
  rw [hr, ht]
  exact h

/-- After reset both buffers list nothing. -/
theorem reset_buffersWf : buffersWf State.reset := by
  constructor <;> exact memWf_nil

theorem clear_wf {b : BitBuffer} (h : Memory.wf b.buf = true) : Memory.wf b.clear.buf = true := by
  rw [clear_eq_reset h]
  exact memWf_nil

/-- Entering any state keeps the canonical form. -/
theorem enter_buffersWf (p : PState) (line : Option Level) {s : State} (h : buffersWf s) :
    buffersWf (enter p line s) := by
  by_cases hp : p = .disabled
  · subst hp
    constructor
    · rw [enter_rx]
      exact clear_wf h.1
    · rw [enter_tx]
      exact clear_wf h.2
  · exact buffersWf_of_eq h (enter_bufs p line s hp).1 (enter_bufs p line s hp).2

theorem raiseAbort_buffersWf (c : AbortCause) {s : State} (h : buffersWf s) : buffersWf (raiseAbort c s) :=
  enter_buffersWf _ _ h

theorem receiveBitLow_buffersWf (n : PState) (t : Tick) {s : State} (h : buffersWf s) :
    buffersWf (receiveBitLow n t s) := by
  unfold receiveBitLow
  split
  · exact raiseAbort_buffersWf _ h
  · exact enter_buffersWf _ _ ⟨setBit_wf _ h.1, h.2⟩

theorem receiveEomLow_buffersWf (t : Tick) {s : State} (h : buffersWf s) : buffersWf (receiveEomLow t s) := by
  unfold receiveEomLow
  split
  · exact raiseAbort_buffersWf _ h
  · exact enter_buffersWf _ _ h

theorem receiveBitHigh_buffersWf (b : BitVec 3) (l m : PState) (t : Tick) {s : State} (h : buffersWf s) :
    buffersWf (receiveBitHigh b l m t s) := by
  unfold receiveBitHigh
  split
  · refine enter_buffersWf _ _ (buffersWf_of_eq h ?_ rfl)
    exact incBit_buf _
  · exact raiseAbort_buffersWf _ h

theorem receiveEomHigh_buffersWf (t : Tick) {s : State} (h : buffersWf s) : buffersWf (receiveEomHigh t s) := by
  unfold receiveEomHigh
  split
  · exact enter_buffersWf _ _ h
  · exact raiseAbort_buffersWf _ h

theorem transmitBitHigh_buffersWf (b : BitVec 3) (l m : PState) (line : Level) {s : State} (h : buffersWf s) :
    buffersWf (transmitBitHigh b l m line s) := by
  unfold transmitBitHigh
  refine enter_buffersWf _ _ (buffersWf_of_eq h rfl ?_)
  exact incBit_buf _

theorem captureIn_buffersWf (p : PState) (t : Tick) {s : State} (h : buffersWf s) : buffersWf (captureIn p t s) := by
  cases p with
  | idle => exact enter_buffersWf _ _ h
  | txFreeTime => exact enter_buffersWf _ _ h
  | rxStartLow =>
    simp only [captureIn, captureRxStartLow]
    split
    · exact enter_buffersWf _ _ h
    · exact enter_buffersWf _ _ h
    · exact raiseAbort_buffersWf _ h
  | rxStartHigh =>
    simp only [captureIn, captureRxStartHigh]
    split
    · exact enter_buffersWf _ _ h
    · exact raiseAbort_buffersWf _ h
  | rxHeaderInitLow => exact receiveBitLow_buffersWf _ _ h
  | rxHeaderDestLow => exact receiveBitLow_buffersWf _ _ h
  | rxDataLow => exact receiveBitLow_buffersWf _ _ h
  | rxHeaderInitHigh => exact receiveBitHigh_buffersWf _ _ _ _ h
  | rxHeaderDestHigh => exact receiveBitHigh_buffersWf _ _ _ _ h
  | rxDataHigh => exact receiveBitHigh_buffersWf _ _ _ _ h
  | rxEomLow => exact receiveEomLow_buffersWf _ h
  | rxEomHigh => exact receiveEomHigh_buffersWf _ h
  | rxAckFinish => exact enter_buffersWf _ _ h
  | _ => exact h

theorem timeoutIn_buffersWf (p : PState) (line : Level) {s : State} (h : buffersWf s) :
    buffersWf (timeoutIn p line s) := by
  cases p with
  | disabled => exact h
  | idle => exact h
  | txHeaderInitHigh => exact transmitBitHigh_buffersWf _ _ _ _ h
  | txHeaderDestHigh => exact transmitBitHigh_buffersWf _ _ _ _ h
  | txDataHigh => exact transmitBitHigh_buffersWf _ _ _ _ h
  | txAckVerify =>
    simp only [timeoutIn, timeoutTxAckVerify]
    split
    · split <;> exact enter_buffersWf _ _ h
    · split <;> exact enter_buffersWf _ _ h
  | rxAckVerify =>
    simp only [timeoutIn, timeoutRxAckVerify]
    split
    · exact raiseAbort_buffersWf _ h
    · exact enter_buffersWf _ _ h
  | rxAckFinish =>
    simp only [timeoutIn, timeoutRxAckFinish]
    split
    · exact enter_buffersWf _ _ h
    · exact raiseAbort_buffersWf _ h
  | _ => exact enter_buffersWf _ _ h

/-- Every operation keeps the canonical form of both buffers. -/
theorem exec_buffersWf {i : Instr} {s t : State} (hs : buffersWf s) (h : exec i s = .next t) : buffersWf t := by
  cases i with
  | evCapture e =>
    simp only [exec, execEvCapture] at h
    split at h
    · cases h; exact hs
    · split at h <;> cases h
      · exact hs
      · exact captureIn_buffersWf _ _ hs
  | evTimeout l =>
    simp only [exec, execEvTimeout] at h
    split at h <;> cases h
    · exact timeoutIn_buffersWf _ _ hs
    · exact hs
  | cmdEnable =>
    cases h
    split
    · exact enter_buffersWf _ _ hs
    · exact hs
  | cmdDisable => cases h; exact enter_buffersWf _ _ hs
  | cmdSetAddr a =>
    cases h
    split <;> exact hs
  | cmdSubmit n d =>
    cases h
    split
    · exact hs
    · split
      · exact hs
      · rename_i hn
        have hle : n.toNat ≤ maxLen := by
          simp only [not_or, gt_iff_lt, not_lt] at hn
          exact hn.2
        split
        · exact hs
        · split
          · exact enter_buffersWf _ _ ⟨hs.1, load_wf d hle hs.2⟩
          · exact ⟨hs.1, load_wf d hle hs.2⟩
  | bbReset b => cases h; cases b <;> exact hs
  | bbClear b =>
    cases h
    cases b
    · exact ⟨clear_wf hs.1, hs.2⟩
    · exact ⟨hs.1, clear_wf hs.2⟩
  | bbSetBit b v =>
    cases h
    cases b
    · exact ⟨setBit_wf v hs.1, hs.2⟩
    · exact ⟨hs.1, setBit_wf v hs.2⟩
  | bbIncBit b =>
    cases h
    cases b
    · exact buffersWf_of_eq hs (incBit_buf _) rfl
    · exact buffersWf_of_eq hs rfl (incBit_buf _)
  | bbLoad b n d =>
    by_cases hle : n.toNat ≤ maxLen
    · rw [exec, execBbLoad_of_le b d s hle] at h
      cases h
      cases b
      · exact ⟨load_wf d hle hs.1, hs.2⟩
      · exact ⟨hs.1, load_wf d hle hs.2⟩
    · rw [exec, execBbLoad_of_gt b d s (Nat.lt_of_not_le hle)] at h
      cases h
      cases b
      · exact ⟨load_wf _ le_rfl hs.1, hs.2⟩
      · exact ⟨hs.1, load_wf _ le_rfl hs.2⟩
  | _ => cases h; exact hs

/-! ### Legal registers -/

/-- Only five registers have a type wider than their legal values (R52). -/
theorem registersLegal_iff (s : State) :
    registersLegal s ↔
      legalAddr s.laddr = true ∧ s.rx.bb.byte.toNat ≤ 16 ∧ s.tx.bb.byte.toNat ≤ 16 ∧ s.tx.len.toNat ≤ 16 ∧
        s.tx.resends.toNat ≤ 5 := by
  constructor
  · intro h
    exact ⟨h .laddr, of_decide_eq_true (h .rxByte), of_decide_eq_true (h .txByte), of_decide_eq_true (h .txLen),
      of_decide_eq_true (h .txResends)⟩
  · rintro ⟨h1, h2, h3, h4, h5⟩ r
    cases r with
    | state => cases hs : s.state <;> simp only [State.readReg, hs] <;> decide
    | laddr => exact h1
    | rxByte => exact decide_eq_true h2
    | txByte => exact decide_eq_true h3
    | txLen => exact decide_eq_true h4
    | txResends => exact decide_eq_true h5
    | gpioOut => simp only [State.readReg]; cases s.gpioOut <;> decide
    | armEdge => simp only [State.readReg]; cases s.armEdge <;> decide
    | armTv => simp only [State.readReg]; cases s.armTv <;> decide
    | rxEom => simp only [State.readReg]; cases s.rx.eom <;> decide
    | rxBnack => simp only [State.readReg]; cases s.rx.bnack <;> decide
    | txAck => simp only [State.readReg]; cases s.tx.ack <;> decide
    | txPi => simp only [State.readReg]; cases s.tx.pi <;> decide
    | armTmo => exact decide_eq_true s.armTmo.isLt
    | rxLow => exact decide_eq_true s.rx.low.isLt
    | rxBit => exact decide_eq_true s.rx.bb.bit.isLt
    | txBit => exact decide_eq_true s.tx.bb.bit.isLt
    | rxDbc =>
      have := s.rx.dbc.isLt
      exact decide_eq_true (by simp only [State.readReg, debCutoff]; omega)
    | rxBuf k => exact decide_eq_true (memRead s.rx.bb.buf k).isLt
    | txBuf k => exact decide_eq_true (memRead s.tx.bb.buf k).isLt

end Sys2Proof.Machine
end

