-- ==== Sys2Proof/Laws/Events.lean ====
section
/-! SUPPORT. The flag tests as propositions, and what the two bus events come to when the collaborator may deliver them. -/

namespace Sys2Proof.Machine

/-! ### The tests of Flags.lean -/

theorem isBroadcast_iff (b : BitBuffer) : isBroadcast b = true ↔ b.dest.toNat = 15 := by
  simp only [isBroadcast, decide_eq_true_eq, bcastAddr]

theorem isAddressedTo_iff (a : BitVec 8) (b : BitBuffer) : isAddressedTo a b = true ↔ b.dest.toNat = a.toNat := by
  simp only [isAddressedTo, decide_eq_true_eq]
  constructor
  · intro h
    rw [← h, BitVec.toNat_setWidth]
    omega
  · intro h
    apply BitVec.eq_of_toNat_eq
    rw [BitVec.toNat_setWidth]
    omega

theorem isForUs_iff (a : BitVec 8) (b : BitBuffer) :
    isForUs a b = true ↔ b.dest.toNat = a.toNat ∨ b.dest.toNat = 15 := by
  rw [isForUs, Bool.or_eq_true, isAddressedTo_iff, isBroadcast_iff]

theorem drivesAck_iff (a : BitVec 8) (b : BitBuffer) :
    drivesAck a b = true ↔ b.dest.toNat ≠ 15 ∧ b.dest.toNat = a.toNat := by
  rw [drivesAck, Bool.and_eq_true, isAddressedTo_iff, Bool.not_eq_true', ← Bool.not_eq_true, isBroadcast_iff]

theorem isFinalByte_iff (rx : RxCtx) : isFinalByte rx = true ↔ rx.eom = true ∨ 16 ≤ rx.bb.byte.toNat := by
  simp only [isFinalByte, Bool.or_eq_true, decide_eq_true_eq, ge_iff_le, maxLen]

theorem isEom_iff (n : BitVec 5) (b : BitBuffer) : b.isEom n = true ↔ b.bit = 0 ∧ b.byte = n := by
  simp only [BitBuffer.isEom, Bool.and_eq_true, decide_eq_true_eq]

/-- TX_ACK of a sampled line (R239). -/
theorem ackFlag_some (l : Level) (tx : BitBuffer) :
    ackFlag (some l) tx = if tx.dest.toNat = 15 then decide (l = released) else decide (l = pulledLow) := by
  simp only [ackFlag, isBroadcast, lineIsLow, bcastAddr, decide_eq_true_eq, Option.some.injEq]
  split <;> cases l <;> rfl

/-- RX_BNACK of a sampled line (R250). -/
theorem bnackFlag_some (l : Level) (rx : BitBuffer) :
    bnackFlag (some l) rx = decide (rx.dest.toNat = 15 ∧ l = pulledLow) := by
  simp only [bnackFlag, isBroadcast, lineIsLow, bcastAddr, Option.some.injEq, Bool.decide_and]

/-! ### The two events -/

/-- A capture the collaborator may deliver runs the transition of the state. -/
theorem exec_evCapture_of_admits {s : State} {t : Tick} (h : contractAdmits s (.evCapture t) = true) :
    exec (.evCapture t) s = .next (captureIn s.state t s.beginStep) := by
  simp only [contractAdmits, Bool.and_eq_true, decide_eq_true_eq, Bool.not_eq_true'] at h
  simp only [exec, execEvCapture, h.1, h.2, if_false, Bool.false_eq_true]

/-- A timeout that is armed runs the transition of the state. -/
theorem exec_evTimeout_of_armed {s : State} {l : Level} (h : s.armTv = true) :
    exec (.evTimeout l) s = .next (timeoutIn s.state l s.beginStep) := by
  simp only [exec, execEvTimeout, h, if_true]

/-! ### Idle -/

/-- The Idle entry from a state that agrees with `s` on what it reads leaves what `enteredIdle` says (R225). -/
theorem enteredIdle_enter {s u : State} (line : Option Level) (hr : u.rx = s.rx) (ht : u.tx = s.tx)
    (hl : u.laddr = s.laddr) (hc : u.cfg = s.cfg) : enteredIdle s (enter .idle line u) := by
  refine ⟨?_, ?_, ?_, ?_, ?_⟩
  · rw [enter_rx, hr]; rfl
  · rw [enter_tx, ht]; rfl
  · rw [enter_laddr, hl]
  · intro hz
    rw [enter_idle_of_eq _ _ (by rw [ht]; exact hz)]
    exact ⟨rfl, rfl, rfl, rfl, rfl, rfl, rfl⟩
  · intro hz
    rw [enter_idle_of_ne _ _ (by rw [ht]; exact hz), ← hc, ← ht]
    exact ⟨rfl, rfl, rfl, rfl, rfl, rfl, rfl⟩

end Sys2Proof.Machine
end

