-- ==== Sys2Proof/Laws/PerInstr.lean ====
section
/-! SUPPORT. A statement made for every instruction: the word `encode` writes is of the format of the instruction's row of
spec/opcode_table.json, and has the row's fixed bits. -/

namespace Sys2Proof.Laws.FitsItsRow

open Sys2Proof

/-- A row of the opcode table: its format, the mask of its fixed bits and their values. -/
structure Row where
  format : String
  mask : Nat
  fixed : Nat
deriving DecidableEq, Repr

/-- The row of each instruction. -/
def row : Instr → Row
  | .evCapture _ => ⟨"EVT32", 0xFF000000, 0x10000000⟩
  | .evTimeout _ => ⟨"EVT32", 0xFFFFFFFE, 0x20000000⟩
  | .cmdEnable => ⟨"EVT32", 0xFFFFFFFF, 0x30000001⟩
  | .cmdDisable => ⟨"EVT32", 0xFFFFFFFF, 0x30000000⟩
  | .cmdSetAddr _ => ⟨"EVT32", 0xFFFFFF00, 0x40000000⟩
  | .cmdSubmit _ _ => ⟨"EVT32", 0xFFFFFFE0, 0x50000000⟩
  | .bbReset _ => ⟨"BB3", 0x7, 0x0⟩
  | .bbClear _ => ⟨"BB3", 0x7, 0x1⟩
  | .bbGetBit _ => ⟨"BB3", 0x7, 0x2⟩
  | .bbSetBit _ _ => ⟨"BB3", 0x7, 0x3⟩
  | .bbIncBit _ => ⟨"BB3", 0x7, 0x4⟩
  | .bbIsEom _ _ => ⟨"BB3", 0x7, 0x5⟩
  | .bbLoad _ _ _ => ⟨"BB3", 0x7, 0x6⟩
  | .bbSnapshot _ => ⟨"BB3", 0x7, 0x7⟩
  | .tpIsValidLow _ _ => ⟨"TP5", 0x1C, 0x0⟩
  | .tpIsValidTotal _ _ _ => ⟨"TP5", 0x1C, 0x4⟩
  | .tpLowDuration _ => ⟨"TP5", 0x1C, 0x8⟩
  | .tpHighDuration _ => ⟨"TP5", 0x1C, 0xC⟩
  | .tpClassify _ => ⟨"TP5", 0x1F, 0x10⟩
  | .tpCapLow _ => ⟨"TP5", 0x1C, 0x14⟩
  | .tpCapHigh _ => ⟨"TP5", 0x1C, 0x18⟩
  | .tpFreeTime _ => ⟨"TP5", 0x1C, 0x1C⟩
  | .dbfClassify _ => ⟨"DBF2", 0x3, 0x0⟩
  | .dbfQuiet => ⟨"DBF2", 0x3, 0x1⟩
  | .dbfReset => ⟨"DBF2", 0x3, 0x2⟩

/-- The format of a word and its bits as a number. -/
def formatOf : OpWord → String × Nat
  | .evt32 w => ("EVT32", w.toNat)
  | .bb3 w => ("BB3", w.toNat)
  | .tp5 w => ("TP5", w.toNat)
  | .dbf2 w => ("DBF2", w.toNat)

/-- The encoding of the instruction fits its row. -/
def Statement (i : Instr) : Prop :=
  (formatOf (encode i).word).1 = (row i).format ∧ (formatOf (encode i).word).2 &&& (row i).mask = (row i).fixed

/-- The fixed bits of a word whose operand has `k` bits below them. -/
theorem append_fixed {k : Nat} (hi fixed w mask : Nat) (hw : w < 2 ^ k) (hm : mask = 2 ^ k * (mask / 2 ^ k))
    (hf : hi &&& mask / 2 ^ k = fixed / 2 ^ k) (hx : fixed = 2 ^ k * (fixed / 2 ^ k)) :
    (hi * 2 ^ k + w) &&& mask = fixed := by
  apply Nat.eq_of_testBit_eq
  intro j
  rw [Nat.testBit_and, hm, hx, ← hf, Nat.mul_comm hi, Nat.testBit_two_pow_mul_add _ hw, Nat.testBit_two_pow_mul,
    Nat.testBit_two_pow_mul, Nat.testBit_and]
  by_cases h : j < k
  · have : ¬ j ≥ k := by omega
    simp [this]
  · have : j ≥ k := by omega
    simp [h, this]

theorem evCapture (e : Tick) : Statement (.evCapture e) := by
  refine ⟨rfl, ?_⟩
  have hv := e.isLt
  have h : (formatOf (encode (.evCapture e)).word).2 = 0x10 * 2 ^ 24 + e.toNat := by
    simp only [encode, formatOf, evt32Word]
    rw [BitVec.toNat_append, BitVec.toNat_append, Nat.shiftLeft_eq, Nat.shiftLeft_eq, Nat.mul_comm,
      ← Nat.two_pow_add_eq_or_of_lt]
    · simp
    · simp
      omega
  rw [h]
  exact append_fixed 0x10 0x10000000 e.toNat 0xFF000000 hv (by decide) (by decide) (by decide)

theorem evTimeout (l : Level) : Statement (.evTimeout l) := by
  cases l <;> exact ⟨rfl, by decide⟩

theorem cmdEnable : Statement .cmdEnable :=
  ⟨rfl, show 0x30000001 &&& 0xFFFFFFFF = 0x30000001 by decide⟩

theorem cmdDisable : Statement .cmdDisable :=
  ⟨rfl, show 0x30000000 &&& 0xFFFFFFFF = 0x30000000 by decide⟩

theorem cmdSetAddr (a : BitVec 8) : Statement (.cmdSetAddr a) := by
  refine ⟨rfl, ?_⟩
  have hv := a.isLt
  have h : (formatOf (encode (.cmdSetAddr a)).word).2 = 0x400000 * 2 ^ 8 + a.toNat := by
    simp only [encode, formatOf, evt32Word]
    rw [BitVec.toNat_append, BitVec.toNat_append, Nat.shiftLeft_eq, Nat.shiftLeft_eq, Nat.mul_comm,
      ← Nat.two_pow_add_eq_or_of_lt]
    · simp
    · simp
      omega
  rw [h]
  exact append_fixed 0x400000 0x40000000 a.toNat 0xFFFFFF00 hv (by decide) (by decide) (by decide)

theorem cmdSubmit (n : BitVec 5) (d : List Byte) : Statement (.cmdSubmit n d) := by
  refine ⟨rfl, ?_⟩
  have hv := n.isLt
  have h : (formatOf (encode (.cmdSubmit n d)).word).2 = 0x2800000 * 2 ^ 5 + n.toNat := by
    simp only [encode, formatOf, evt32Word]
    rw [BitVec.toNat_append, BitVec.toNat_append, Nat.shiftLeft_eq, Nat.shiftLeft_eq, Nat.mul_comm,
      ← Nat.two_pow_add_eq_or_of_lt]
    · simp
    · simp
      omega
  rw [h]
  exact append_fixed 0x2800000 0x50000000 n.toNat 0xFFFFFFE0 hv (by decide) (by decide) (by decide)

theorem bbReset (b : BufSel) : Statement (.bbReset b) :=
  ⟨rfl, show 0x0 &&& 0x7 = 0x0 by decide⟩

theorem bbClear (b : BufSel) : Statement (.bbClear b) :=
  ⟨rfl, show 0x1 &&& 0x7 = 0x1 by decide⟩

theorem bbGetBit (b : BufSel) : Statement (.bbGetBit b) :=
  ⟨rfl, show 0x2 &&& 0x7 = 0x2 by decide⟩

theorem bbSetBit (b : BufSel) (v : Bool) : Statement (.bbSetBit b v) :=
  ⟨rfl, show 0x3 &&& 0x7 = 0x3 by decide⟩

theorem bbIncBit (b : BufSel) : Statement (.bbIncBit b) :=
  ⟨rfl, show 0x4 &&& 0x7 = 0x4 by decide⟩

theorem bbIsEom (b : BufSel) (n : BitVec 5) : Statement (.bbIsEom b n) :=
  ⟨rfl, show 0x5 &&& 0x7 = 0x5 by decide⟩

theorem bbLoad (b : BufSel) (n : BitVec 5) (d : List Byte) : Statement (.bbLoad b n d) :=
  ⟨rfl, show 0x6 &&& 0x7 = 0x6 by decide⟩

theorem bbSnapshot (b : BufSel) : Statement (.bbSnapshot b) :=
  ⟨rfl, show 0x7 &&& 0x7 = 0x7 by decide⟩

/-- The bits of a TP5 selector whose `sel` is a symbol. -/
theorem tp5_fixed (s : Symbol) :
    (formatOf (tp5Word 0b000 (symbolCode s))).2 &&& 0x1C = 0x0 ∧ (formatOf (tp5Word 0b001 (symbolCode s))).2 &&& 0x1C = 0x4 := by
  cases s <;> decide

theorem tpIsValidLow (s : Symbol) (t : Tick) : Statement (.tpIsValidLow s t) := ⟨rfl, (tp5_fixed s).1⟩

theorem tpIsValidTotal (s : Symbol) (l : Tick) (h : Tick) : Statement (.tpIsValidTotal s l h) :=
  ⟨rfl, (tp5_fixed s).2⟩

theorem tpLowDuration (s : Symbol) : Statement (.tpLowDuration s) := by
  cases s <;> exact ⟨rfl, by decide⟩

theorem tpHighDuration (s : Symbol) : Statement (.tpHighDuration s) := by
  cases s <;> exact ⟨rfl, by decide⟩

theorem tpClassify (t : Tick) : Statement (.tpClassify t) :=
  ⟨rfl, show 0x10 &&& 0x1F = 0x10 by decide⟩

theorem tpCapLow (s : Symbol) : Statement (.tpCapLow s) := by
  cases s <;> exact ⟨rfl, by decide⟩

theorem tpCapHigh (s : Symbol) : Statement (.tpCapHigh s) := by
  cases s <;> exact ⟨rfl, by decide⟩

theorem tpFreeTime (r : Tier) : Statement (.tpFreeTime r) := by
  cases r <;> exact ⟨rfl, by decide⟩

theorem dbfClassify (t : Tick) : Statement (.dbfClassify t) :=
  ⟨rfl, show 0x0 &&& 0x3 = 0x0 by decide⟩

theorem dbfQuiet : Statement .dbfQuiet :=
  ⟨rfl, show 0x1 &&& 0x3 = 0x1 by decide⟩

theorem dbfReset : Statement .dbfReset :=
  ⟨rfl, show 0x2 &&& 0x3 = 0x2 by decide⟩

end Sys2Proof.Laws.FitsItsRow
end

