-- ==== Sys2Proof/Laws/Timing.lean ====
section
/-! SUPPORT. The Timing Policy and the Debounce Filter: tick fields, what a well-formed configuration gives, and the cases
of each test. -/

namespace Sys2Proof.Machine

/-- An integer that fits a tick field is the field's value. -/
theorem tickInt_toTick {z : Int} (h0 : 0 ≤ z) (h1 : z < 2 ^ 24) : tickInt (toTick z) = z := by
  rw [tickInt, toTick, BitVec.toNat_ofInt, Int.toNat_of_nonneg (by omega)]
  omega

/-- A tick field is not negative and fits. -/
theorem tickInt_bounds (t : Tick) : 0 ≤ tickInt t ∧ tickInt t < 2 ^ 24 := by
  have := t.isLt
  unfold tickInt
  omega

theorem toNat_eq_tickInt (t : Tick) : (t.toNat : Int) = tickInt t := rfl

/-- A duration is not negative. -/
theorem ticksOf_nonneg (c : Cfg) (us : Nat) : 0 ≤ ticksOf c us := by
  unfold ticksOf
  exact mul_nonneg (Int.natCast_nonneg _) (Int.natCast_nonneg _)

/-- IS_VALID_LOW as a range (R171). -/
theorem isValidLow_iff (c : Cfg) (sym : Symbol) (t : Tick) :
    isValidLow c sym t = true ↔ minLow c sym - tol c ≤ tickInt t ∧ tickInt t ≤ maxLow c sym + tol c := by
  simp [isValidLow]

/-- IS_VALID_TOTAL as a range (R172). -/
theorem isValidTotal_iff (c : Cfg) (sym : Symbol) (low high : Tick) :
    isValidTotal c sym low high = true ↔
      minTotal c sym - tol c ≤ tickInt low + tickInt high ∧ tickInt low + tickInt high ≤ maxTotal c sym + tol c := by
  simp [isValidTotal]

/-- What R11 says of a well-formed configuration, clause by clause. -/
theorem cfgWf_iff (c : Cfg) :
    cfgWf c = true ↔
      cfgFits c = true ∧ cfgBitPeriod c = true ∧ cfgSample c = true ∧ cfgDisjoint c = true ∧ cfgGlitch c = true ∧
        cfgNominal c .start = true ∧ cfgNominal c .data0 = true ∧ cfgNominal c .data1 = true := by
  simp only [cfgWf, Bool.and_eq_true, and_assoc]

/-- R11 (a): each tick value of a well-formed configuration fits a tick field. -/
theorem cfgWf_fits {c : Cfg} (h : cfgWf c = true) : ∀ v ∈ tickValues c, v < 2 ^ 24 := by
  have := ((cfgWf_iff c).1 h).1
  simp only [cfgFits, Bool.and_eq_true, List.all_eq_true, decide_eq_true_eq] at this
  exact this.2

/-- R11 (c). -/
theorem cfgWf_sample {c : Cfg} (h : cfgWf c = true) :
    lowNom c .data1 < sample c ∧ sample c < lowNom c .data0 ∧ lowNom c .data0 < bitNom c := by
  have := ((cfgWf_iff c).1 h).2.2.1
  simpa [cfgSample, and_assoc] using this

/-- R11 (d). -/
theorem cfgWf_disjoint {c : Cfg} (h : cfgWf c = true) : maxLow c .data1 + tol c < minLow c .data0 - tol c := by
  have := ((cfgWf_iff c).1 h).2.2.2.1
  simpa [cfgDisjoint] using this

/-- R11 (e). -/
theorem cfgWf_glitch {c : Cfg} (h : cfgWf c = true) : debLimit c ≤ minLow c .start - tol c := by
  have := ((cfgWf_iff c).1 h).2.2.2.2.1
  simpa [cfgGlitch] using this

/-- R11 (f). -/
theorem cfgWf_nominal {c : Cfg} (h : cfgWf c = true) (sym : Symbol) :
    minLow c sym ≤ lowNom c sym ∧ lowNom c sym ≤ maxLow c sym ∧ minTotal c sym ≤ lowNom c sym + highNom c sym ∧
      lowNom c sym + highNom c sym ≤ maxTotal c sym := by
  obtain ⟨-, -, -, -, -, h1, h2, h3⟩ := (cfgWf_iff c).1 h
  cases sym
  · simpa [cfgNominal, and_assoc] using h1
  · simpa [cfgNominal, and_assoc] using h2
  · simpa [cfgNominal, and_assoc] using h3

/-- CLASSIFY answers DATA0 exactly in the widened data-0 window (R175). -/
theorem classifyLow_data0 (c : Cfg) (t : Tick) : classifyLow c t = .data0 ↔ isValidLow c .data0 t = true := by
  unfold classifyLow
  split
  · simp_all
  · split <;> simp_all

/-- CLASSIFY answers DATA1 in the widened data-1 window, the data-0 window being tested first (R175). -/
theorem classifyLow_data1 (c : Cfg) (t : Tick) :
    classifyLow c t = .data1 ↔ isValidLow c .data0 t = false ∧ isValidLow c .data1 t = true := by
  unfold classifyLow
  split
  · simp_all
  · split <;> simp_all

/-- CLASSIFY answers INVALID outside both windows (R175). -/
theorem classifyLow_invalid (c : Cfg) (t : Tick) :
    classifyLow c t = .invalid ↔ isValidLow c .data0 t = false ∧ isValidLow c .data1 t = false := by
  unfold classifyLow
  split
  · simp_all
  · split <;> simp_all

/-- A low that is classified is valid for the symbol of its bit. -/
theorem isValidLow_of_classifyLow {c : Cfg} {t : Tick} (h : classifyLow c t ≠ .invalid) :
    isValidLow c (dataSymbol (decide (classifyLow c t = .data1))) t = true := by
  cases hc : classifyLow c t with
  | data0 => simpa [dataSymbol] using (classifyLow_data0 c t).1 hc
  | data1 => simpa [dataSymbol] using ((classifyLow_data1 c t).1 hc).2
  | invalid => exact absurd hc h

end Sys2Proof.Machine
end

