-- ==== Sys2Proof/Tests/Slice0.lean ====
section
/-! SUPPORT. Tests of our own: the smoke test of WellFormed, a word written out from the spec's tables for every operation,
the worked examples of the rules, and for every statement with hypotheses a state and operands that meet them. -/

namespace Sys2Proof.Tests

open Sys2Proof Sys2Proof.Machine

/-! ### WellFormed -/

/-- Sixteen bytes. -/
def port (bytes : List Byte) : List Byte := bytes ++ List.replicate (16 - bytes.length) 0

theorem test_wellFormed_submit : WellFormed (.cmdSubmit 2 (port [0x04, 0x36])) = true := by decide
theorem test_wellFormed_short_submit_refused : WellFormed (.cmdSubmit 2 [0x04, 0x36]) = false := by decide
theorem test_wellFormed_long_submit_refused : WellFormed (.cmdSubmit 2 (List.replicate 17 0)) = false := by decide
theorem test_wellFormed_short_load_refused : WellFormed (.bbLoad .tx 1 []) = false := by decide
theorem test_wellFormed_long_load_refused : WellFormed (.bbLoad .tx 1 (List.replicate 17 0)) = false := by decide

/-! ### Decoding: words written out from R101 to R107 and R113 to R116 -/

/-- The input of a word, every port 0. -/
def word (w : OpWord) : Input := ⟨w, zeroPorts⟩

/-- The input of an EVT32 word. -/
def evt (w : BitVec 32) : Input := word (.evt32 w)

theorem test_decode_evCapture : decode (evt 0b00010000000000000000111001110100) = .ok (.evCapture 3700) := by decide
theorem test_decode_evCapture_max : decode (evt 0b00010000111111111111111111111111) = .ok (.evCapture 16777215) := by decide
theorem test_decode_evTimeout : decode (evt 0b00100000000000000000000000000001) = .ok (.evTimeout released) := by decide
theorem test_decode_evTimeout_low : decode (evt 0b00100000000000000000000000000000) = .ok (.evTimeout pulledLow) := by decide
theorem test_decode_cmdEnable : decode (evt 0b00110000000000000000000000000001) = .ok .cmdEnable := by decide
theorem test_decode_cmdDisable : decode (evt 0b00110000000000000000000000000000) = .ok .cmdDisable := by decide
theorem test_decode_cmdSetAddr : decode (evt 0b01000000000000000000000011111110) = .ok (.cmdSetAddr 254) := by decide
theorem test_decode_cmdSubmit : decode (evt 0b01010000000000000000000000010001) = .ok (.cmdSubmit 17 (port [])) := by decide
theorem test_decode_cmdSubmit_data :
    decode ⟨.evt32 0b01010000000000000000000000000010, { zeroPorts with data := port [0x04, 0x36] }⟩ =
      .ok (.cmdSubmit 2 (port [0x04, 0x36])) := by decide
theorem test_decode_bbReset : decode ⟨.bb3 0b000, { zeroPorts with sel := .tx }⟩ = .ok (.bbReset .tx) := by decide
theorem test_decode_bbClear : decode ⟨.bb3 0b001, zeroPorts⟩ = .ok (.bbClear .rx) := by decide
theorem test_decode_bbGetBit : decode ⟨.bb3 0b010, { zeroPorts with sel := .tx }⟩ = .ok (.bbGetBit .tx) := by decide
theorem test_decode_bbSetBit : decode ⟨.bb3 0b011, { zeroPorts with v := true }⟩ = .ok (.bbSetBit .rx true) := by decide
theorem test_decode_bbIncBit : decode ⟨.bb3 0b100, zeroPorts⟩ = .ok (.bbIncBit .rx) := by decide
theorem test_decode_bbIsEom : decode ⟨.bb3 0b101, { zeroPorts with sel := .tx, len := 2 }⟩ = .ok (.bbIsEom .tx 2) := by decide
theorem test_decode_bbLoad : decode ⟨.bb3 0b110, { zeroPorts with sel := .tx, len := 2, data := port [0x04, 0x36] }⟩ = .ok (.bbLoad .tx 2 (port [0x04, 0x36])) := by decide
theorem test_decode_bbSnapshot : decode ⟨.bb3 0b111, zeroPorts⟩ = .ok (.bbSnapshot .rx) := by decide
theorem test_decode_tpIsValidLow : decode ⟨.tp5 0b00010, { zeroPorts with t := 900 }⟩ = .ok (.tpIsValidLow .data1 900) := by decide
theorem test_decode_tpIsValidTotal : decode ⟨.tp5 0b00101, { zeroPorts with low := 1500, high := 900 }⟩ = .ok (.tpIsValidTotal .data0 1500 900) := by decide
theorem test_decode_tpLowDuration : decode ⟨.tp5 0b01000, zeroPorts⟩ = .ok (.tpLowDuration .start) := by decide
theorem test_decode_tpHighDuration : decode ⟨.tp5 0b01101, zeroPorts⟩ = .ok (.tpHighDuration .data0) := by decide
theorem test_decode_tpClassify : decode ⟨.tp5 0b10000, { zeroPorts with t := 600 }⟩ = .ok (.tpClassify 600) := by decide
theorem test_decode_tpCapLow : decode ⟨.tp5 0b10101, zeroPorts⟩ = .ok (.tpCapLow .data0) := by decide
theorem test_decode_tpCapHigh : decode ⟨.tp5 0b11010, zeroPorts⟩ = .ok (.tpCapHigh .data1) := by decide
theorem test_decode_tpFreeTime : decode ⟨.tp5 0b11110, zeroPorts⟩ = .ok (.tpFreeTime .present) := by decide
theorem test_decode_dbfClassify : decode ⟨.dbf2 0b00, { zeroPorts with t := 199 }⟩ = .ok (.dbfClassify 199) := by decide
theorem test_decode_dbfQuiet : decode ⟨.dbf2 0b01, zeroPorts⟩ = .ok .dbfQuiet := by decide
theorem test_decode_dbfReset : decode ⟨.dbf2 0b10, zeroPorts⟩ = .ok .dbfReset := by decide

theorem test_decode_reserved_op : decode (evt 0b01100000000000000000000000000000) = .error .reservedOp := by decide
theorem test_decode_zero_word : decode (evt 0b00000000000000000000000000000000) = .error .reservedOp := by decide
theorem test_decode_capture_reserved_bit :
    decode (evt 0b00010001000000000000000000000000) = .error .reservedField := by decide
theorem test_decode_timeout_reserved_bit :
    decode (evt 0b00100000000000000000000000000010) = .error .reservedField := by decide
theorem test_decode_setAddr_reserved_bit :
    decode (evt 0b01000000000000000000000100000000) = .error .reservedField := by decide
theorem test_decode_submit_reserved_bit :
    decode (evt 0b01010000000000000000000000100000) = .error .reservedField := by decide
theorem test_decode_reserved_symbol : decode (word (.tp5 0b00011)) = .error .reservedSelector := by decide
theorem test_decode_reserved_classify : decode (word (.tp5 0b10001)) = .error .reservedSelector := by decide
theorem test_decode_reserved_tier : decode (word (.tp5 0b11111)) = .error .reservedSelector := by decide
theorem test_decode_reserved_dbf : decode (word (.dbf2 0b11)) = .error .reservedSelector := by decide

theorem test_decodeTableWord_capture : decodeTableWord 32 0x10000005 = some (.evCapture 5) := by decide
theorem test_decodeTableWord_snapshot : decodeTableWord 8 7 = some (.bbSnapshot .rx) := by decide
theorem test_decodeTableWord_freeTime : decodeTableWord 8 0x1C = some (.tpFreeTime .resend) := by decide

/-! ### States and one-step tests -/

/-- A state of the protocol, armed as its entry arms it, everything else as after reset. -/
def inState (p : PState) : State :=
  { State.reset with state := p, armEdge := stateEdge p, armTv := stateTimeout p, armTmo := if stateTimeout p then 4000 else 0 }

/-- A field of the next state of an operation, or a default. -/
def nextOf {α : Type} (f : State → α) (dflt : α) : Host.Outcome State Fault Refusal → α
  | .next t => f t
  | .fault _ => dflt
  | .refused _ => dflt

/-- The result a selector gives in a state. -/
def resultIn (s : State) (i : Instr) : Option SelResult := nextOf State.selResult none (exec i s)

/-- A state with a receive or transmit buffer of some bytes and a cursor. -/
def withCursor (b : BufSel) (bytes : List Byte) (bit : BitVec 3) (byte : BitVec 5) (s : State) : State :=
  s.withBuffer b ⟨memFill (fun k => bytes.getD k 0) [] bytes.length, bit, byte⟩

-- R143 to R148: the worked example of each rule.
theorem test_getBit_example :
    resultIn (withCursor .rx [0x04] 5 0 State.reset) (.bbGetBit .rx) = some (.bit true) := by decide
theorem test_setBit_example :
    nextOf (fun t => memRead t.rx.bb.buf 1) 0 (exec (.bbSetBit .rx false) (withCursor .rx [0, 0xFF] 7 1 State.reset)) = 0xFE := by
  decide
theorem test_incBit_carry :
    nextOf (fun t => (t.rx.bb.bit, t.rx.bb.byte)) (0, 0) (exec (.bbIncBit .rx) (withCursor .rx [] 7 15 State.reset)) = (0, 16) := by
  decide
theorem test_incBit_saturates :
    nextOf (fun t => (t.rx.bb.bit, t.rx.bb.byte)) (0, 0) (exec (.bbIncBit .rx) (withCursor .rx [] 3 16 State.reset)) = (3, 16) := by
  decide
theorem test_isEom_example : resultIn (withCursor .tx [] 0 2 State.reset) (.bbIsEom .tx 2) = some (.bit true) := by decide
theorem test_load_example :
    nextOf (fun t => memRead t.tx.bb.buf 1) 0 (exec (.bbLoad .tx 2 (port [0x04, 0x36])) State.reset) = 0x36 := by decide
theorem test_load_overlong_runs :
    nextOf (fun t => (t.tx.bb.bit, t.tx.bb.byte, t.tx.len, t.freeDraws)) (0, 0, 0, 0)
      (exec (.bbLoad .tx 31 (port [])) (withCursor .tx [] 3 2 State.reset)) = (3, 2, 0, 1) := by decide
theorem test_snapshot_example :
    resultIn (withCursor .rx [0x04, 0x8F, 0x55] 0 2 State.reset) (.bbSnapshot .rx) =
      some (.snapshot 2 (port [0x04, 0x8F])) := by decide
theorem test_clear_zeroes : nextOf (fun t => t.rx.bb) ⟨[], 1, 1⟩ (exec (.bbClear .rx) (withCursor .rx [7, 8] 3 2 State.reset)) = resetBuffer := by
  decide
theorem test_reset_keeps_bytes :
    nextOf (fun t => (t.rx.bb.byte, memRead t.rx.bb.buf 0)) (9, 9) (exec (.bbReset .rx) (withCursor .rx [7] 5 3 State.reset)) = (0, 7) := by
  decide

-- R171 to R178: the worked examples under the default profile.
theorem test_isValidLow_example :
    resultIn State.reset (.tpIsValidLow .start 3400) = some (.bit true) ∧
      resultIn State.reset (.tpIsValidLow .start 3399) = some (.bit false) := by decide
theorem test_isValidLow_data1_example :
    resultIn State.reset (.tpIsValidLow .data1 900) = some (.bit true) ∧
      resultIn State.reset (.tpIsValidLow .data1 901) = some (.bit false) := by decide
theorem test_isValidTotal_example :
    resultIn State.reset (.tpIsValidTotal .data0 1500 1351) = some (.bit false) ∧
      resultIn State.reset (.tpIsValidTotal .start 3700 500) = some (.bit true) := by decide
theorem test_lowDuration_example : resultIn State.reset (.tpLowDuration .data1) = some (.ticks 600) := by decide
theorem test_highDuration_example : resultIn State.reset (.tpHighDuration .start) = some (.ticks 800) := by decide
theorem test_classify_example :
    resultIn State.reset (.tpClassify 1200) = some (.bitClass .data0) ∧
      resultIn State.reset (.tpClassify 1199) = some (.bitClass .invalid) ∧
      resultIn State.reset (.tpClassify 300) = some (.bitClass .data1) := by decide
theorem test_capLow_example : resultIn State.reset (.tpCapLow .data0) = some (.ticks 1800) := by decide
theorem test_capHigh_example :
    resultIn State.reset (.tpCapHigh .start) = some (.ticks 1400) ∧
      resultIn State.reset (.tpCapHigh .data1) = some (.ticks 2550) := by decide
theorem test_freeTime_example : resultIn State.reset (.tpFreeTime .present) = some (.ticks 14400) := by decide

-- R201 to R203.
theorem test_dbfClassify_example :
    resultIn State.reset (.dbfClassify 199) = some (.startClass .glitch) ∧
      resultIn State.reset (.dbfClassify 200) = some (.startClass .abort) ∧
      resultIn State.reset (.dbfClassify 3700) = some (.startClass .validStart) := by decide
theorem test_dbfQuiet_example :
    nextOf (fun t => (t.selResult, t.rx.dbc)) (none, 0) (exec .dbfQuiet { State.reset with rx := { State.reset.rx with dbc := 2 } }) =
      (some (.ticks 100), 3) := by decide
theorem test_dbfReset_example :
    nextOf (fun t => t.rx.dbc) 1 (exec .dbfReset { State.reset with rx := { State.reset.rx with dbc := 3 } }) = 0 := by decide

-- R320 to R323.
theorem test_enable_arms_falling :
    nextOf (fun t => (t.state, t.armEdge, t.armTv)) (.disabled, .none, true) (exec .cmdEnable State.reset) =
      (.idle, .falling, false) := by decide
theorem test_setAddr_rejects :
    nextOf (fun t => (t.laddr, t.out.result)) (0, none) (exec (.cmdSetAddr 16) State.reset) = (255, some .rejected) := by decide
theorem test_submit_disabled_first :
    nextOf (fun t => t.out.result) none (exec (.cmdSubmit 0 (port [])) State.reset) = some .disabled := by decide
theorem test_submit_invalid_before_busy :
    nextOf (fun t => t.out.result) none
      (exec (.cmdSubmit 17 (port [])) { inState .txFreeTime with tx := { State.reset.tx with len := 1 } }) = some .invalid := by decide
theorem test_submit_starts_in_idle :
    nextOf (fun t => (t.state, t.armTmo, t.tx.len)) (.idle, 0, 0) (exec (.cmdSubmit 1 (port [0x40])) (inState .idle)) =
      (.txFreeTime, 9600, 1) := by decide
theorem test_disable_keeps_address :
    nextOf (fun t => (t.state, t.laddr, t.tx.len)) (.idle, 0, 1)
      (exec .cmdDisable { inState .idle with laddr := 4 }) = (.disabled, 4, 0) := by decide

-- R275, R303: one event each way.
theorem test_capture_start_boundary :
    nextOf (fun t => t.state) .idle (exec (.evCapture 3400) (inState .rxStartLow)) = .rxStartHigh ∧
      nextOf (fun t => t.state) .disabled (exec (.evCapture 3399) (inState .rxStartLow)) = .idle ∧
      nextOf (fun t => t.state) .idle (exec (.evCapture 199) (inState .rxStartLow)) = .rxDebounce := by decide
theorem test_timeout_nak_resends :
    nextOf (fun t => (t.state, t.tx.resends, t.armTmo)) (.idle, 0, 0)
      (exec (.evTimeout released) { inState .txAckVerify with tx := ⟨⟨[], 0, 1⟩, 1, 4, false, true⟩ }) =
      (.txFreeTime, 5, 4800) := by decide
theorem test_timeout_broadcast_ack_inverted :
    nextOf (fun t => t.tx.ack) false
      (exec (.evTimeout released) { inState .txAckHigh with tx := ⟨⟨[(0, 0x4F)], 0, 1⟩, 1, 0, false, true⟩ }) = true := by decide

/-! ### Witnesses: for every statement with hypotheses, a state and operands that meet them -/

/-- The base invariant from its decidable parts. -/
theorem baseInv_of {s : State} (hw : Memory.wf s.rx.bb.buf = true ∧ Memory.wf s.tx.bb.buf = true)
    (hl : legalAddr s.laddr = true ∧ s.rx.bb.byte.toNat ≤ 16 ∧ s.tx.bb.byte.toNat ≤ 16 ∧ s.tx.len.toNat ≤ 16 ∧
      s.tx.resends.toNat ≤ 5)
    (hp : (s.state.isTx = true → s.tx.len ≠ 0) ∧ (s.state = .idle → s.tx.len = 0) ∧
      (s.gpioOut = pulledLow → mayHoldLow s.state = true))
    (ha : s.armTv = stateTimeout s.state ∧ (s.armTv = false → s.armTmo = 0) ∧
      (s.state ≠ .rxAckFinish → s.armEdge = stateEdge s.state) ∧ (s.state = .rxAckFinish → s.armEdge ≠ .rising)) :
    BaseInv s := ⟨hw, (registersLegal_iff s).2 hl, hp.1, hp.2.1, hp.2.2, ha⟩

/-- The protocol invariant from its parts. -/
theorem protoInv_of {s : State} (hb : BaseInv s)
    (hd : s.state = .disabled → s.rx = State.reset.rx ∧ s.tx = State.reset.tx) (hr : rxPlace s.state s.rx)
    (ht : txPlace s.state s.tx)
    (hf : (s.state = .rxAckFinish → (s.armEdge = .none ↔ isFinalByte s.rx = true)) ∧
      (s.rx.bnack = true → s.state = .rxAckVerify ∧ isBroadcast s.rx.bb = true) ∧
      (s.gpioOut = pulledLow → s.state = .rxAckLow ∨ s.state = .rxAckVerify → isBroadcast s.rx.bb = false)) : ProtoInv s :=
  ⟨hb, hd, hr, ht, hf⟩

/-- A state that transmits `len` bytes with its cursor somewhere. -/
def sending (p : PState) (len byte : BitVec 5) (bit : BitVec 3) : State :=
  { inState p with tx := ⟨⟨[(0, 0x04)], bit, byte⟩, len, 0, false, false⟩ }

/-- A state that receives with its cursor somewhere, the low of the bit measured at 1500. -/
def receiving (p : PState) (byte : BitVec 5) (bit : BitVec 3) : State :=
  { inState p with rx := ⟨⟨[(0, 0x04)], bit, byte⟩, false, false, 1500, 0⟩ }

/-- A state in which one input waits. -/
def fed (x : Input) (s : State) : State := { s with inputs := [x] }

theorem base_reset : BaseInv State.reset := baseInv_of (by decide) (by decide) (by decide) (by decide)
theorem base_idle : BaseInv (inState .idle) := baseInv_of (by decide) (by decide) (by decide) (by decide)
theorem proto_idle : ProtoInv (inState .idle) :=
  protoInv_of base_idle (by decide) ⟨rfl, rfl, rfl, rfl⟩ ⟨rfl, rfl⟩ (by decide)
theorem base_freeTime : BaseInv (sending .txFreeTime 1 0 0) :=
  baseInv_of (by decide) (by decide) (by decide) (by decide)
theorem proto_freeTime : ProtoInv (sending .txFreeTime 1 0 0) :=
  protoInv_of base_freeTime (by decide) ⟨rfl, rfl, rfl, rfl⟩ trivial (by decide)

theorem test_witness_DecodeOfEncodeIsIdentity : WellFormed (.bbLoad .rx 16 (port [])) = true := by decide
theorem test_witness_EncodeOfDecodeIsSameWord :
    decode (evt 0b00111111111111111111111111111111) = .error .reservedField ∧
      decode (evt 0b00110000000000000000000000000001) = .ok .cmdEnable := by decide
theorem test_witness_ReservedWordsAreRefused :
    cfgWf State.reset.cfg = true ∧ (fed (evt 0x60000000) State.reset).inputs = [⟨.evt32 0x60000000, zeroPorts⟩] ∧
      decode ⟨.evt32 0x60000000, zeroPorts⟩ = .error .reservedOp := by decide
theorem test_witness_ReservedSelectorsAreRefused :
    cfgWf State.reset.cfg = true ∧ (fed (word (.dbf2 3)) State.reset).inputs = [word (.dbf2 3)] ∧
      decode (word (.dbf2 3)) = .error .reservedSelector := by decide
theorem test_witness_RefusedMarkIsKept :
    nextOf (fun t => t.refusedMark) none (step (fed (evt 0x30000001) { State.reset with refusedMark := some .lateCapture })) =
      some .lateCapture := by decide
theorem test_witness_StepRunsTheDecodedOperation :
    cfgWf State.reset.cfg = true ∧ (fed (evt 0x30000001) State.reset).inputs = [evt 0x30000001] ∧
      decode (evt 0x30000001) = .ok .cmdEnable := by decide
theorem test_witness_WellFormedConfigurations : cfgWf { defaultCfg with ticksPerUs := 0 } = false := by decide
theorem test_witness_ResetRegisterValues : Reg.txPi ≠ .laddr ∧ Reg.txPi ≠ .gpioOut := by decide
theorem test_witness_buffersWf : buffersWf (sending .txDataLow 16 15 7) := by constructor <;> decide
theorem test_witness_BaseInvariantKeptByEveryStep :
    BaseInv (fed (evt 0x30000001) State.reset) ∧ ∃ t, step (fed (evt 0x30000001) State.reset) = .next t :=
  ⟨baseInv_of (by decide) (by decide) (by decide) (by decide), _, rfl⟩
theorem test_witness_ProtocolInvariantKeptByInputOperations :
    (Instr.evTimeout released).isInputOp = true ∧ ProtoInv (sending .txFreeTime 1 0 0) ∧
      ∃ t, exec (.evTimeout released) (sending .txFreeTime 1 0 0) = .next t := ⟨rfl, proto_freeTime, _, rfl⟩
theorem test_witness_StreamsOfInputWordsNeverStop :
    cfgWf (fed (evt 0x00000000) (inState .idle)).cfg = true ∧ ProtoInv (fed (evt 0x00000000) (inState .idle)) ∧
      onlyInputWords (fed (evt 0x00000000) (inState .idle)).inputs :=
  ⟨by decide, protoInv_of (baseInv_of (by decide) (by decide) (by decide) (by decide)) (by decide) ⟨rfl, rfl, rfl, rfl⟩
    ⟨rfl, rfl⟩ (by decide), fun _ hx => ⟨0, by rw [List.mem_singleton.1 hx]; rfl⟩⟩

/-- The last bit of the last byte received. -/
theorem test_witness_cursor_rxDataHigh : ProtoInv (receiving .rxDataHigh 15 7) :=
  protoInv_of (baseInv_of (by decide) (by decide) (by decide) (by decide)) (by decide) ⟨by decide, by decide, rfl⟩
    ⟨rfl, rfl⟩ (by decide)
/-- The first bit of a frame about to be sent, and the last bit of its last byte. -/
theorem test_witness_cursor_tx : ProtoInv (sending .txStartHigh 16 0 0) ∧ ProtoInv (sending .txDataHigh 16 15 7) :=
  ⟨protoInv_of (baseInv_of (by decide) (by decide) (by decide) (by decide)) (by decide) ⟨rfl, rfl, rfl, rfl⟩ ⟨rfl, rfl⟩
    (by decide), protoInv_of (baseInv_of (by decide) (by decide) (by decide) (by decide)) (by decide)
    ⟨rfl, rfl, rfl, rfl⟩ ⟨by decide, by decide⟩ (by decide)⟩
/-- The ACK of the byte before the last. -/
theorem test_witness_cursor_txAckVerify :
    ProtoInv (sending .txAckVerify 16 15 0) ∧
      (sending .txAckVerify 16 15 0).tx.bb.isEom (sending .txAckVerify 16 15 0).tx.len = false :=
  ⟨protoInv_of (baseInv_of (by decide) (by decide) (by decide) (by decide)) (by decide) ⟨rfl, rfl, rfl, rfl⟩
    ⟨rfl, by decide, by decide⟩ (by decide), by decide⟩
/-- A byte that is not the last, at the highest byte index it can have. -/
theorem test_witness_cursor_rxAckFinish :
    ProtoInv { receiving .rxAckFinish 15 0 with armEdge := .falling } :=
  protoInv_of (baseInv_of (by decide) (by decide) (by decide) (by decide)) (by decide) ⟨rfl, by decide, by decide⟩
    ⟨rfl, rfl⟩ (by decide)

theorem test_witness_AddressWrittenOnlyBySetAddr : ∃ t, exec (.cmdSetAddr 15) State.reset = .next t := ⟨_, rfl⟩
theorem test_witness_PendingFrameIsConstant :
    BaseInv (sending .txFreeTime 1 0 0) ∧ (sending .txFreeTime 1 0 0).tx.len ≠ 0 ∧
      ∃ t, exec (.cmdSubmit 2 (port [])) (sending .txFreeTime 1 0 0) = .next t := ⟨base_freeTime, by decide, _, rfl⟩
theorem test_witness_EverySubmissionEndsOnce :
    (∀ i ∈ [Instr.cmdSubmit 1 (port []), .cmdDisable], i.isInputOp = true) ∧ BaseInv (inState .idle) ∧
      ∃ t, after [.cmdSubmit 1 (port []), .cmdDisable] (inState .idle) = some t := ⟨by decide, base_idle, _, rfl⟩
/-- A line that is low in an initiator's and in a follower's state. -/
theorem test_witness_LineLowIsLetGo :
    ProtoInv { sending .txStartLow 1 0 0 with gpioOut := pulledLow } ∧
      ProtoInv { receiving .rxAckLow 1 0 with gpioOut := pulledLow } :=
  ⟨protoInv_of (baseInv_of (by decide) (by decide) (by decide) (by decide)) (by decide) ⟨rfl, rfl, rfl, rfl⟩ ⟨rfl, rfl⟩
    (by decide), protoInv_of (baseInv_of (by decide) (by decide) (by decide) (by decide)) (by decide)
    ⟨rfl, by decide, by decide⟩ ⟨rfl, rfl⟩ (by decide)⟩

theorem test_witness_EntriesDriveAndArmAsTheTable :
    State.reset.out = noOut ∧ State.reset.tx.len = 0 ∧ (sending .txFreeTime 1 0 0).out = noOut ∧
      (sending .txFreeTime 1 0 0).tx.len ≠ 0 := by decide
theorem test_witness_UnarmedEventsAreIgnored :
    State.reset.armEdge = .none ∧ State.reset.armTv = false ∧ (inState .idle).armTv = false := by decide
theorem test_witness_LateCapturesAreRefused :
    (inState .rxStartLow).armEdge ≠ .none ∧ (inState .rxStartLow).armTv = true ∧
      (inState .rxStartLow).armTmo.toNat < (4001 : Tick).toNat := by decide
/-- A capture exactly at its timeout. -/
theorem test_witness_TransitionsFollowTheTable :
    BaseInv (receiving .rxDataLow 15 7) ∧ contractAdmits (receiving .rxDataLow 15 7) (.evCapture 4000) = true ∧
      contractAdmits (receiving .rxDataLow 15 7) (.evTimeout pulledLow) = true ∧ BaseInv State.reset ∧ State.reset.state = .disabled :=
  ⟨baseInv_of (by decide) (by decide) (by decide) (by decide), by decide, by decide,
    baseInv_of (by decide) (by decide) (by decide) (by decide), rfl⟩
/-- The command clauses where their ranges meet: a length of 0, 1, 16 and 17, in states of each column of R327. -/
theorem test_witness_TransitionsFollowTheTable_commands :
    ProtoInv (receiving .rxDataHigh 15 7) ∧ (receiving .rxDataHigh 15 7).state.isRx = true ∧
      (sending .txDataLow 16 15 7).state.isTx = true ∧ (0 : BitVec 5).toNat = 0 ∧ 1 ≤ (1 : BitVec 5).toNat ∧
      (16 : BitVec 5).toNat ≤ 16 ∧ 16 < (17 : BitVec 5).toNat :=
  ⟨test_witness_cursor_rxDataHigh, by decide, by decide, by decide, by decide, by decide, by decide⟩
theorem test_witness_FallingEdgeStartsReception :
    contractAdmits (inState .idle) (.evCapture 16777215) = true ∧
      contractAdmits (sending .txFreeTime 1 0 0) (.evCapture 4000) = true := by decide
/-- The ends of the three classes of a start-bit low, and of the start total. -/
theorem test_witness_StartBitIsValidated :
    contractAdmits (inState .rxStartLow) (.evCapture 4000) = true ∧
      isValidLow (inState .rxStartLow).cfg .start 3400 = true ∧ isValidLow (inState .rxStartLow).cfg .start 3399 = false ∧
      tickInt 199 < debLimit defaultCfg ∧ debLimit defaultCfg ≤ tickInt 200 ∧
      isValidLow (inState .rxStartLow).cfg .start 199 = false ∧
      contractAdmits (inState .rxStartHigh) (.evCapture 4000) = true ∧ isValidTotal defaultCfg .start 3700 500 = true ∧
      isValidTotal defaultCfg .start 3700 499 = false := by decide
theorem test_witness_ReceivedBitIsStored :
    contractAdmits (receiving .rxHeaderInitLow 0 3) (.evCapture 1800) = true ∧
      contractAdmits (receiving .rxHeaderDestLow 0 7) (.evCapture 1800) = true ∧
      contractAdmits (receiving .rxDataLow 15 7) (.evCapture 1801) = true ∧ classifyLow defaultCfg 1800 ≠ .invalid ∧
      classifyLow defaultCfg 1801 = .invalid := by decide
theorem test_witness_EomBitIsReceived :
    contractAdmits (receiving .rxEomLow 1 0) (.evCapture 1801) = true ∧
      contractAdmits (receiving .rxEomHigh 1 0) (.evCapture 1350) = true ∧
      isValidTotal defaultCfg .data0 1500 1350 = true ∧ isValidTotal defaultCfg .data0 1500 1351 = false := by decide
theorem test_witness_ReceivedBitTotalIsChecked :
    contractAdmits (receiving .rxHeaderInitHigh 0 3) (.evCapture 1350) = true ∧
      contractAdmits (receiving .rxHeaderDestHigh 0 7) (.evCapture 1350) = true ∧
      contractAdmits (receiving .rxDataHigh 15 7) (.evCapture 1351) = true ∧
      (receiving .rxHeaderInitHigh 0 3).rx.bb.incBit.bit = 4 ∧ (receiving .rxHeaderDestHigh 0 7).rx.bb.incBit.bit = 0 ∧
      (receiving .rxHeaderDestHigh 0 6).rx.bb.incBit.bit ≠ 0 := by decide
/-- The ACK slot's states, a NAKed broadcast, a last byte and one that is not, at the byte index where they meet. -/
theorem test_witness_AckSlotOfReceivedByte :
    (receiving .rxAckLow 1 0).armTv = true ∧ (receiving .rxAckVerify 1 0).armTv = true ∧
      (receiving .rxAckFinish 16 0).armTv = true ∧ (receiving .rxAckVerify 15 0).rx.eom = false ∧
      (receiving .rxAckVerify 15 0).rx.bnack = false ∧ (receiving .rxAckVerify 15 0).rx.bb.byte.toNat < 16 ∧
      16 ≤ (receiving .rxAckVerify 16 0).rx.bb.byte.toNat ∧
      contractAdmits { receiving .rxAckFinish 15 0 with armEdge := .falling } (.evCapture 4000) = true := by decide
theorem test_witness_ReceiveTimeoutsReturnToIdle :
    (inState .rxDebounce).armTv = true ∧ (inState .rxStartLow).armTv = true ∧ (inState .rxDataHigh).armTv = true := by
  decide
theorem test_witness_TransmitTimeoutsDriveTheFrame :
    (sending .txStartLow 1 0 0).armTv = true ∧ (sending .txHeaderInitHigh 1 0 3).armTv = true ∧
      (sending .txHeaderInitHigh 1 0 3).tx.bb.incBit.bit = 4 ∧ (sending .txHeaderInitHigh 1 0 2).tx.bb.incBit.bit ≠ 4 ∧
      (sending .txFreeTime 1 0 0).armTv = true ∧ (sending .txEomHigh 1 1 0).armTv = true ∧
      (sending .txAckLow 1 1 0).armTv = true ∧ (sending .txAckHigh 1 1 0).armTv = true := by decide
/-- The four cases at the resend count where they meet. -/
theorem test_witness_AckDecidesTheTransmission :
    (sending .txAckVerify 2 1 0).armTv = true ∧ (sending .txAckVerify 2 1 0).tx.bb.isEom 2 = false ∧
      (sending .txAckVerify 2 2 0).tx.bb.isEom 2 = true ∧ (sending .txAckVerify 2 1 0).tx.ack = false ∧
      (4 : BitVec 3).toNat < 5 ∧ 5 ≤ (5 : BitVec 3).toNat := by decide
theorem test_witness_AbortsKeepThePendingFrame :
    (sending .rxDataLow 1 0 0).out = noOut ∧ (sending .rxDataLow 1 0 0).selResult = none := by decide
theorem test_witness_EnableEntersIdle : State.reset.state = .disabled ∧ (inState .idle).state ≠ .disabled := by decide
theorem test_witness_SetAddrStoresLegalAddresses :
    ((15 : BitVec 8).toNat ≤ 15 ∨ (15 : BitVec 8).toNat = 255) ∧ ((255 : BitVec 8).toNat ≤ 15 ∨ (255 : BitVec 8).toNat = 255) ∧
      ¬ ((16 : BitVec 8).toNat ≤ 15 ∨ (16 : BitVec 8).toNat = 255) ∧
      ¬ ((254 : BitVec 8).toNat ≤ 15 ∨ (254 : BitVec 8).toNat = 255) := by decide
/-- The lengths where the clauses meet, and the states of each. -/
theorem test_witness_SubmitLoadsAndStarts :
    State.reset.state = .disabled ∧ (inState .idle).state ≠ .disabled ∧ (0 : BitVec 5).toNat = 0 ∧
      16 < (17 : BitVec 5).toNat ∧ 1 ≤ (1 : BitVec 5).toNat ∧ (16 : BitVec 5).toNat ≤ 16 ∧
      (sending .txFreeTime 1 0 0).tx.len ≠ 0 ∧ (inState .idle).tx.len = 0 ∧ (receiving .rxDataLow 1 0).tx.len = 0 ∧
      (receiving .rxDataLow 1 0).state ≠ .idle := by decide
/-- The two sides of the one-past-end position, and of the last bit of a byte. -/
theorem test_witness_cursor_clauses :
    16 ≤ (withCursor .rx [] 0 16 State.reset).rx.bb.byte.toNat ∧ (withCursor .rx [] 7 15 State.reset).rx.bb.byte.toNat < 16 ∧
      (withCursor .rx [] 7 15 State.reset).rx.bb.bit.toNat = 7 ∧ (withCursor .rx [] 6 15 State.reset).rx.bb.bit.toNat < 7 := by
  decide
theorem test_witness_LoadWritesTheFirstBytes :
    buffersWf (sending .txDataLow 16 15 7) ∧ (16 : BitVec 5).toNat ≤ 16 ∧ 16 < (17 : BitVec 5).toNat :=
  ⟨test_witness_buffersWf, by decide, by decide⟩
theorem test_witness_MovedBitsGiveTheSameBytes :
    Memory.wf (receiving .idle 0 0).rx.bb.buf = true ∧ Memory.wf [] = true ∧ 1 ≤ 1 ∧ 16 ≤ 16 := by decide
theorem test_witness_cfgWf : cfgWf State.reset.cfg = true ∧ cfgWf { defaultCfg with ticksPerUs := 7 } = true := by decide
/-- A low and a total at the ends of the data-1 window, and a low that is in neither. -/
theorem test_witness_ToleranceIsSymmetric :
    minLow defaultCfg .data1 ≤ tickInt 400 ∧ tickInt 400 ≤ maxLow defaultCfg .data1 ∧
      minTotal defaultCfg .data1 ≤ tickInt 400 + tickInt 2350 ∧ tickInt 400 + tickInt 2350 ≤ maxTotal defaultCfg .data1 ∧
      (∀ b : Bool, tickInt 901 < minLow defaultCfg (dataSymbol b) - tol defaultCfg ∨
        maxLow defaultCfg (dataSymbol b) + tol defaultCfg < tickInt 901) := by decide
theorem test_witness_CapsNeverCutAValidPhase :
    isValidLow defaultCfg .data0 1200 = true ∧ isValidTotal defaultCfg .data0 1200 1650 = true := by decide
theorem test_witness_RaceAdmitsBothSuccessors :
    BaseInv (sending .txFreeTime 1 0 0) ∧ (sending .txFreeTime 1 0 0).armEdge ≠ .none ∧
      (sending .txFreeTime 1 0 0).armTv = true := ⟨base_freeTime, by decide, by decide⟩
/-- The clauses of the Debounce Filter at their ends. -/
theorem test_witness_DebounceOperations :
    isValidLow defaultCfg .start 4000 = true ∧ isValidLow defaultCfg .start 199 = false ∧
      (199 : Tick).toNat < 200 * defaultCfg.ticksPerUs ∧ 200 * defaultCfg.ticksPerUs ≤ (200 : Tick).toNat ∧
      isValidLow defaultCfg .start 200 = false ∧ (2 : BitVec 2).toNat < 3 ∧ 3 ≤ (3 : BitVec 2).toNat := by decide
theorem test_witness_GlitchesEscalateTheQuietPeriod :
    ProtoInv (inState .idle) ∧ (inState .idle).rx.dbc = 0 ∧
      ∀ g ∈ [((0 : Tick), (199 : Tick), released), (5, 0, pulledLow)], tickInt g.2.1 < debLimit (inState .idle).cfg :=
  ⟨proto_idle, by decide, fun g hg => by
    rcases List.mem_cons.1 hg with rfl | hg
    · decide
    · rw [List.mem_singleton.1 hg]
      decide⟩
theorem test_witness_AcknowledgedFrameIsSent :
    ProtoInv (sending .txFreeTime 1 0 0) ∧
      (List.replicate 24 pulledLow).length = 3 + 21 * (sending .txFreeTime 1 0 0).tx.len.toNat ∧
      ∀ k < (sending .txFreeTime 1 0 0).tx.len.toNat,
        (List.replicate 24 pulledLow)[3 + 21 * k + 19]? = some (isBroadcast (sending .txFreeTime 1 0 0).tx.bb) :=
  ⟨proto_freeTime, by decide, by decide⟩
theorem test_witness_SixNaksFailTheFrame :
    ProtoInv (sending .txFreeTime 1 0 0) ∧ (sending .txFreeTime 1 0 0).tx.resends = 0 ∧
      ∀ k < 6, (List.replicate 144 released)[24 * k + 22]? = some (!isBroadcast (sending .txFreeTime 1 0 0).tx.bb) :=
  ⟨proto_freeTime, by decide, fun k hk => by
    rw [List.getElem?_replicate, if_pos (by omega)]
    decide⟩

/-- A byte seen with its nominal durations; `last` is its EOM bit. -/
def nominalByte (v : Byte) (last : Bool) : SeenByte :=
  ⟨v, (byteBits v ++ [last]).map (fun b => if b then (600, 1800) else (1500, 900)), released, 900⟩

theorem test_witness_ValidFrameIsReceived :
    ProtoInv (inState .idle) ∧ isValidLow defaultCfg .start 3700 = true ∧ isValidTotal defaultCfg .start 3700 800 = true ∧
      (seenDest [nominalByte 0x4F false, nominalByte 0x36 true]).toNat = 15 ∧
      seenBytesValid defaultCfg true [nominalByte 0x4F false, nominalByte 0x36 true] = true :=
  ⟨proto_idle, by decide, by decide, by decide, by decide⟩
/-- From a transmit and from a receive state. -/
theorem test_witness_TimeoutsReachIdle :
    ProtoInv (sending .txFreeTime 1 0 0) ∧ (List.replicate 2034 released).length = 6 * (3 + 21 * 16) ∧
      (sending .txFreeTime 1 0 0).state.isRx = false ∧ ProtoInv (receiving .rxDataHigh 15 7) ∧
      (receiving .rxDataHigh 15 7).state.isRx = true :=
  ⟨proto_freeTime, List.length_replicate, by decide, test_witness_cursor_rxDataHigh, by decide⟩

end Sys2Proof.Tests
end

section
/-! SUPPORT. PROOFS. Scope (00_scope.md): the clauses of R11 in µs, and runs over input words. The protocol invariant is
kept by every input operation, because each entry establishes it from what its transition leaves. -/

namespace Sys2Proof.Machine

/-! ### Durations in ticks and in µs -/

theorem ticksOf_add (c : Cfg) (a b : Nat) : ticksOf c (a + b) = ticksOf c a + ticksOf c b := by
  simp only [ticksOf, Nat.cast_add, add_mul]

theorem ticksOf_lt_iff {c : Cfg} (h : 0 < c.ticksPerUs) (a b : Nat) : ticksOf c a < ticksOf c b ↔ a < b := by
  rw [ticksOf, ticksOf, mul_lt_mul_iff_left₀ (Int.natCast_pos.2 h), Int.ofNat_lt]

theorem ticksOf_le_iff {c : Cfg} (h : 0 < c.ticksPerUs) (a b : Nat) : ticksOf c a ≤ ticksOf c b ↔ a ≤ b := by
  rw [← not_lt, ticksOf_lt_iff h, not_lt]

theorem ticksOf_inj {c : Cfg} (h : 0 < c.ticksPerUs) (a b : Nat) : ticksOf c a = ticksOf c b ↔ a = b := by
  simp only [le_antisymm_iff, ticksOf_le_iff h]

/-! ### The clauses of R11 in µs -/

theorem cfgFits_iff (c : Cfg) : cfgFits c = true ↔ 0 < c.ticksPerUs ∧ ∀ v ∈ tickValues c, v < 2 ^ 24 := by
  simp only [cfgFits, Bool.and_eq_true, decide_eq_true_eq, List.all_eq_true]

/-- The tick values are the durations of R8 to R10 and R179 in ticks; only their order differs. -/
theorem forall_mem_tickValues (c : Cfg) (P : Int → Prop) :
    (∀ v ∈ tickValues c, P v) ↔ ∀ us ∈ boundedUs c, P (us * c.ticksPerUs) := by
  have hrate : (0 : Int) ≤ c.ticksPerUs := Int.natCast_nonneg _
  simp only [tickValues, boundedUs, List.forall_mem_append, List.forall_mem_cons, List.not_mem_nil, IsEmpty.forall_iff,
    implies_true, and_true,
    capStartLow, capStartHigh, capDataLow, capDataHigh, txAckLowTime, txAckHighTime, txAckTail, rxAckToSample, rxAckHold,
    rxAckTail, freeTimeInt, bitNom, tol, debLimit, debShort, debLong, sample, lowNom, highNom, minLow, maxLow, minTotal,
    maxTotal, ticksOf, bitNomUs, tolUs, debLimitUs, debShortUs, debLongUs, ftRsMul, ftNiMul, ftPiMul, Nat.cast_ofNat,
    add_mul, sub_mul, max_mul_of_nonneg _ _ hrate, mul_assoc]
  constructor
  · intro h
    simp only [h, and_self]
  · intro h
    simp only [h, and_self]

theorem cfgBitPeriod_iff {c : Cfg} (h : 0 < c.ticksPerUs) :
    cfgBitPeriod c = true ↔ c.d0LowNomUs + c.d0HighNomUs = 2400 ∧ c.d1LowNomUs + c.d1HighNomUs = 2400 := by
  simp only [cfgBitPeriod, lowNom, highNom, bitNom, bitNomUs, Bool.and_eq_true, decide_eq_true_eq, ← ticksOf_add,
    ticksOf_inj h]

theorem cfgSample_iff {c : Cfg} (h : 0 < c.ticksPerUs) :
    cfgSample c = true ↔ c.d1LowNomUs < c.sampleUs ∧ c.sampleUs < c.d0LowNomUs ∧ c.d0LowNomUs < 2400 := by
  simp only [cfgSample, lowNom, sample, bitNom, bitNomUs, Bool.and_eq_true, decide_eq_true_eq, ticksOf_lt_iff h, and_assoc]

theorem cfgDisjoint_iff {c : Cfg} (h : 0 < c.ticksPerUs) :
    cfgDisjoint c = true ↔ c.d1MaxLowUs + 100 + 100 < c.d0MinLowUs := by
  simp only [cfgDisjoint, maxLow, minLow, tol, tolUs, decide_eq_true_eq, lt_sub_iff_add_lt, ← ticksOf_add, ticksOf_lt_iff h]

theorem cfgGlitch_iff {c : Cfg} (h : 0 < c.ticksPerUs) : cfgGlitch c = true ↔ 200 + 100 ≤ c.startMinLowUs := by
  simp only [cfgGlitch, minLow, tol, tolUs, debLimit, debLimitUs, decide_eq_true_eq, le_sub_iff_add_le, ← ticksOf_add,
    ticksOf_le_iff h]

/-- R11 (f) for one symbol, its durations given in µs. -/
theorem cfgNominal_iff {c : Cfg} (h : 0 < c.ticksPerUs) {sym : Symbol} {lo hi loMin loMax totMin totMax : Nat}
    (hlo : lowNom c sym = ticksOf c lo) (hhi : highNom c sym = ticksOf c hi) (hloMin : minLow c sym = ticksOf c loMin)
    (hloMax : maxLow c sym = ticksOf c loMax) (htotMin : minTotal c sym = ticksOf c totMin)
    (htotMax : maxTotal c sym = ticksOf c totMax) :
    cfgNominal c sym = true ↔ loMin ≤ lo ∧ lo ≤ loMax ∧ totMin ≤ lo + hi ∧ lo + hi ≤ totMax := by
  simp only [cfgNominal, hlo, hhi, hloMin, hloMax, htotMin, htotMax, Bool.and_eq_true, decide_eq_true_eq, ← ticksOf_add,
    ticksOf_le_iff h, and_assoc]

/-- A configuration that fails R11 has no runs (U3). -/
theorem step_of_illFormed {s : State} (h : cfgWf s.cfg = false) : step s = .refused .illFormedConfig := by
  simp only [step, h, Bool.false_eq_true, if_false]

/-! ### The step and the configurations (O7, O9) -/

/-- Settles O7: the step lemma for an input that decodes. -/
theorem stepRunsTheDecodedOperation : Obligations.StepRunsTheDecodedOperation := by
  intro s x rest i hc hx hd
  exact step_of_decode hc hx hd

/-- Settles O9: each clause of R11 is turned from ticks into µs, the positive rate cancelling. -/
theorem wellFormedConfigurations : Obligations.WellFormedConfigurations := by
  refine ⟨fun c => ?_, fun s h => step_of_illFormed h, by decide⟩
  rw [cfgWf_iff, cfgFits_iff, and_assoc]
  refine and_congr_right fun hrate => ?_
  rw [forall_mem_tickValues c (· < 2 ^ 24), cfgBitPeriod_iff hrate, cfgSample_iff hrate, cfgDisjoint_iff hrate,
    cfgGlitch_iff hrate, cfgNominal_iff (sym := .start) hrate rfl rfl rfl rfl rfl rfl,
    cfgNominal_iff (sym := .data0) hrate rfl rfl rfl rfl rfl rfl,
    cfgNominal_iff (sym := .data1) hrate rfl rfl rfl rfl rfl rfl]

/-! ### The clauses of the invariants by name -/

section Clauses

variable {s : State} (h : ProtoInv s)
include h

theorem ProtoInv.buffers : buffersWf s := h.1.1

theorem ProtoInv.legal : registersLegal s := h.1.2.1

theorem ProtoInv.pending (hs : s.state.isTx = true) : s.tx.len ≠ 0 := h.1.2.2.1 hs

theorem ProtoInv.rxAt : rxPlace s.state s.rx := h.2.2.1

theorem ProtoInv.txAt : txPlace s.state s.tx := h.2.2.2.1

theorem ProtoInv.released_of (hs : mayHoldLow s.state = false) : s.gpioOut = released := by
  obtain ⟨⟨-, -, -, -, hline, -⟩, -⟩ := h
  by_contra hne
  have hlow := hline (Bool.eq_false_of_not_eq_true hne)
  rw [hs] at hlow
  cases hlow

theorem ProtoInv.noNak_of (hs : s.state ≠ .rxAckVerify) : s.rx.bnack = false := by
  obtain ⟨-, -, -, -, -, hnak, -⟩ := h
  exact Bool.eq_false_of_not_eq_true fun hb => hs (hnak hb).1

/-- In RxAckFinish an armed edge says that the frame goes on (R251). -/
theorem ProtoInv.frameGoesOn (hs : s.state = .rxAckFinish) (he : s.armEdge ≠ .none) :
    s.rx.eom = false ∧ s.rx.bb.byte.toNat < maxLen := by
  obtain ⟨-, -, -, -, hfin, -⟩ := h
  have hnot : ¬ isFinalByte s.rx = true := fun hf => he ((hfin hs).2 hf)
  rw [isFinalByte_iff, not_or, Bool.not_eq_true, not_le] at hnot
  exact hnot

/-- Only a frame that is not a broadcast is acknowledged by pulling the line (R249). -/
theorem ProtoInv.notBroadcast (hs : s.state = .rxAckLow) (hlow : s.gpioOut = pulledLow) :
    isBroadcast s.rx.bb = false := by
  obtain ⟨-, -, -, -, -, -, hack⟩ := h
  exact hack hlow (Or.inl hs)

end Clauses

/-! ### Legal registers -/

/-- Legality of the registers depends on the five whose type is wider than their legal values. -/
theorem registersLegal_of_eq {s t : State} (h : registersLegal s) (ha : t.laddr = s.laddr)
    (hr : t.rx.bb.byte = s.rx.bb.byte) (ht : t.tx.bb.byte = s.tx.bb.byte) (hl : t.tx.len = s.tx.len)
    (hk : t.tx.resends = s.tx.resends) : registersLegal t := by
  rw [registersLegal_iff, ha, hr, ht, hl, hk]
  exact (registersLegal_iff s).1 h

/-- A change of the receive context keeps the registers legal when it keeps the byte index legal. -/
theorem registersLegal_mapRx {s : State} {f : RxCtx → RxCtx} (h : registersLegal s)
    (hb : (f s.rx).bb.byte.toNat ≤ 16) : registersLegal (s.mapRx f) := by
  obtain ⟨ha, -, hrest⟩ := (registersLegal_iff s).1 h
  exact (registersLegal_iff _).2 ⟨ha, hb, hrest⟩

/-- A change of the transmit context keeps the registers legal when the three registers it has there are. -/
theorem registersLegal_mapTx {s : State} {f : TxCtx → TxCtx} (h : registersLegal s)
    (hb : (f s.tx).bb.byte.toNat ≤ 16) (hl : (f s.tx).len.toNat ≤ 16) (hk : (f s.tx).resends.toNat ≤ 5) :
    registersLegal (s.mapTx f) := by
  obtain ⟨ha, hr, -⟩ := (registersLegal_iff s).1 h
  exact (registersLegal_iff _).2 ⟨ha, hr, hb, hl, hk⟩

/-- An entry resets a cursor or keeps it, and clears the length and the resend count or keeps them. -/
theorem enter_registersLegal (p : PState) (line : Option Level) {s : State} (h : registersLegal s) :
    registersLegal (enter p line s) := by
  obtain ⟨ha, hr, ht, hl, hk⟩ := (registersLegal_iff s).1 h
  rw [registersLegal_iff, enter_laddr, enter_rx, enter_tx]
  refine ⟨ha, ?_⟩
  cases p with
  | disabled => exact ⟨Nat.zero_le _, Nat.zero_le _, Nat.zero_le _, Nat.zero_le _⟩
  | idle => exact ⟨Nat.zero_le _, Nat.zero_le _, hl, hk⟩
  | txStartLow => exact ⟨hr, Nat.zero_le _, hl, hk⟩
  | _ => exact ⟨hr, ht, hl, hk⟩

/-! ### The line and the arm shadow an entry leaves -/

/-- GPIO_OUT after an entry is the level of the drive column of R223, where there is one. -/
theorem enter_gpioOut (p : PState) (line : Option Level) (s : State) (hp : p = .idle → s.tx.len = 0) :
    (enter p line s).gpioOut = (tableDrive s p).getD s.gpioOut := by
  cases p with
  | idle => rw [enter_idle_of_eq line s (hp rfl)]; rfl
  | rxAckLow =>
    by_cases hd : s.rx.bb.dest.toNat ≠ 15 ∧ s.rx.bb.dest.toNat = s.laddr.toNat
    · simp only [enter, entryAction, entryRxAckLow, (drivesAck_iff _ _).2 hd, tableDrive, bcastAddr, if_pos hd, if_true,
        arm_gpioOut, drive_gpioOut, Option.getD_some]
    · simp only [enter, entryAction, entryRxAckLow, mt (drivesAck_iff _ _).1 hd, tableDrive, bcastAddr, if_neg hd,
        Bool.false_eq_true, if_false, arm_gpioOut, Option.getD_none]
  | rxAckFinish =>
    simp only [enter, entryAction, entryRxAckFinish]
    split <;> [(split <;> rfl); rfl]
  | _ => rfl

/-- The arm shadow after an entry is the arm column of R223. -/
theorem enter_armed (p : PState) (line : Option Level) (s : State) (hp : p = .idle → s.tx.len = 0) :
    (enter p line s).armEdge = (tableArm s p).1 ∧ (enter p line s).armTv = (tableArm s p).2.isSome ∧
      (enter p line s).armTmo = (tableArm s p).2.getD 0 := by
  cases p with
  | idle => rw [enter_idle_of_eq line s (hp rfl)]; exact ⟨rfl, rfl, rfl⟩
  | rxAckFinish =>
    simp only [enter, entryAction, entryRxAckFinish, tableArm, isFinalByte_iff]
    split <;> exact ⟨rfl, rfl, rfl⟩
  | _ => exact ⟨rfl, rfl, rfl⟩

theorem tableArm_timeout (s : State) (p : PState) : (tableArm s p).2.isSome = stateTimeout p := by
  cases p with
  | rxAckFinish => simp only [tableArm]; split <;> rfl
  | _ => rfl

theorem tableArm_edge (s : State) {p : PState} (hp : p ≠ .rxAckFinish) : (tableArm s p).1 = stateEdge p := by
  cases p with
  | rxAckFinish => exact absurd rfl hp
  | _ => rfl

/-- In RxAckFinish no edge is armed exactly when the byte is final (R251). -/
theorem tableArm_rxAckFinish (s : State) :
    (tableArm s .rxAckFinish).1 ≠ .rising ∧ ((tableArm s .rxAckFinish).1 = .none ↔ isFinalByte s.rx = true) := by
  rw [isFinalByte_iff]
  simp only [tableArm, maxLen]
  split <;> simp_all

/-- With no frame pending where Idle is entered, an entry leaves the state it names. -/
theorem enter_state_of (p : PState) (line : Option Level) (s : State) (hp : p = .idle → s.tx.len = 0) :
    (enter p line s).state = p := by
  rw [enter_state, if_neg fun hc => hc.2 (hp hc.1)]

/-- An entry leaves the arm shadow of its state (R35, R223). -/
theorem enter_armMatches (p : PState) (line : Option Level) (s : State) (hp : p = .idle → s.tx.len = 0) :
    armMatches (enter p line s) := by
  obtain ⟨hedge, htv, htmo⟩ := enter_armed p line s hp
  rw [armMatches, enter_state_of p line s hp, hedge, htv, htmo]
  refine ⟨tableArm_timeout s p, ?_, tableArm_edge s, ?_⟩
  · intro hnone
    rw [Option.isSome_eq_false_iff.1 hnone |> Option.isNone_iff_eq_none.1]
    rfl
  · rintro rfl
    exact (tableArm_rxAckFinish s).1

/-! ### Entering a state establishes the protocol invariant -/

/-- What must hold before the entry of `p` for ProtoInv to hold after it: nothing is asked of STATE and of the arm shadow,
which the entry writes, nor of the transmit cursor where TxStartLow resets it. -/
structure Enterable (p : PState) (s : State) : Prop where
  buffers : buffersWf s
  legal : registersLegal s
  pending : p.isTx = true → s.tx.len ≠ 0
  unsent : p = .idle → s.tx.len = 0
  rxAt : rxPlace p s.rx
  txAt : p ≠ .txStartLow → txPlace p s.tx
  noNak : s.rx.bnack = false
  /-- a line held low is driven anew, or goes on as the ACK of a frame that is not a broadcast -/
  line : s.gpioOut = pulledLow → (tableDrive s p).isSome = true ∨ (p = .rxAckVerify ∧ isBroadcast s.rx.bb = false)

theorem enter_rxPlace {p : PState} (line : Option Level) {s : State} (hp : p ≠ .disabled) (h : rxPlace p s.rx) :
    rxPlace p (enter p line s).rx := by
  rw [enter_rx]
  cases p with
  | disabled => exact absurd rfl hp
  | idle => exact ⟨rfl, rfl, rfl, rfl⟩
  | _ => exact h

theorem enter_txPlace {p : PState} (line : Option Level) {s : State} (hp : p ≠ .disabled)
    (h : p ≠ .txStartLow → txPlace p s.tx) : txPlace p (enter p line s).tx := by
  rw [enter_tx]
  cases p with
  | disabled => exact absurd rfl hp
  | idle => exact ⟨rfl, rfl⟩
  | txStartLow => exact ⟨rfl, rfl⟩
  | _ => exact h (by decide)

/-- Only the RxAckVerify entry sets RX_BNACK, and only for a broadcast (R250). -/
theorem enter_bnack {p : PState} (line : Option Level) {s : State} (h : s.rx.bnack = false)
    (hb : (enter p line s).rx.bnack = true) : p = .rxAckVerify ∧ isBroadcast (enter p line s).rx.bb = true := by
  rw [enter_rx] at hb ⊢
  cases p with
  | disabled => cases hb
  | idle => cases hb
  | rxAckVerify => exact ⟨rfl, (Bool.and_eq_true _ _ ▸ hb : _ ∧ _).1⟩
  | _ => exact absurd (h.symm.trans hb) Bool.false_ne_true

/-- The drive column of R223 pulls the line low only in states that may hold it low (R254). -/
theorem mayHoldLow_of_tableDrive {s : State} {p : PState} (h : tableDrive s p = some pulledLow) :
    mayHoldLow p = true := by
  cases p with
  | txStartLow | txHeaderInitLow | txHeaderDestLow | txDataLow | txEomLow | txAckLow | rxAckLow | rxAckVerify => rfl
  | _ => cases h

/-- The line is pulled in the ACK slot only of a frame that is not a broadcast (R249). -/
theorem notBroadcast_of_tableDrive {s : State} (h : tableDrive s .rxAckLow = some pulledLow) :
    isBroadcast s.rx.bb = false := by
  simp only [tableDrive, bcastAddr] at h
  split at h
  next hd => exact Bool.eq_false_of_not_eq_true fun hb => hd.1 ((isBroadcast_iff _).1 hb)
  next => cases h

/-- Where the line is low after an entry, the entry pulled it, or it goes on as the ACK of a direct frame. -/
theorem Enterable.pulled {p : PState} {s : State} (h : Enterable p s)
    (hlow : (tableDrive s p).getD s.gpioOut = pulledLow) :
    tableDrive s p = some pulledLow ∨ (p = .rxAckVerify ∧ isBroadcast s.rx.bb = false) := by
  cases hd : tableDrive s p with
  | none =>
    rw [hd] at hlow
    refine Or.inr ((h.line hlow).resolve_left fun hsome => ?_)
    rw [hd] at hsome
    cases hsome
  | some v =>
    rw [hd] at hlow
    exact Or.inl (congrArg some hlow)

/-- Entering any state but Disabled from a state that is ready for it leaves the protocol invariant. -/
theorem enter_protoInv {p : PState} (line : Option Level) {s : State} (h : Enterable p s) (hp : p ≠ .disabled) :
    ProtoInv (enter p line s) := by
  have hstate := enter_state_of p line s h.unsent
  have hline := enter_gpioOut p line s h.unsent
  have hlen := (enter_tx_len p line s hp).1
  refine ⟨⟨enter_buffersWf p line h.buffers, enter_registersLegal p line h.legal, ?_, ?_, ?_,
    enter_armMatches p line s h.unsent⟩, ?_, ?_, ?_, ?_, ?_, ?_⟩
  · rw [hstate, hlen]; exact h.pending
  · rw [hstate, hlen]; exact h.unsent
  · rw [hstate, hline]
    intro hlow
    rcases h.pulled hlow with hd | ⟨rfl, -⟩
    · exact mayHoldLow_of_tableDrive hd
    · rfl
  · rw [hstate]; exact fun hd => absurd hd hp
  · rw [hstate]; exact enter_rxPlace line hp h.rxAt
  · rw [hstate]; exact enter_txPlace line hp h.txAt
  · rw [hstate, (enter_armed p line s h.unsent).1]
    rintro rfl
    rw [enter_rx]
    exact (tableArm_rxAckFinish s).2
  · rw [hstate]; exact enter_bnack line h.noNak
  · rw [hstate, hline]
    intro hlow hack
    have hbb : (enter p line s).rx.bb = s.rx.bb := by
      rw [enter_rx]
      rcases hack with rfl | rfl <;> rfl
    rw [hbb]
    rcases h.pulled hlow with hd | ⟨-, hdirect⟩
    · rcases hack with rfl | rfl
      · exact notBroadcast_of_tableDrive hd
      · cases hd
    · exact hdirect

/-- The entry of Disabled clears both contexts, whatever they held (R224). -/
theorem enter_disabled_protoInv (line : Option Level) {s : State} (hb : buffersWf s) (hl : registersLegal s) :
    ProtoInv (enter .disabled line s) := by
  have hrx : (enter .disabled line s).rx = State.reset.rx := by
    rw [enter_rx]
    simp only [clearRx, clear_eq_reset hb.1, State.reset]
  have htx : (enter .disabled line s).tx = State.reset.tx := by
    rw [enter_tx]
    simp only [clearTx, clear_eq_reset hb.2, State.reset]
  have hstate : (enter .disabled line s).state = .disabled := rfl
  have hline : (enter .disabled line s).gpioOut = released := rfl
  refine ⟨⟨enter_buffersWf _ line hb, enter_registersLegal _ line hl, ?_, ?_, ?_, enter_armMatches _ line s ?_⟩,
    fun _ => ⟨hrx, htx⟩, ?_, ?_, ?_, ?_, ?_⟩
  · rw [hstate]; exact fun hd => absurd hd (by decide)
  · rw [hstate]; exact fun hd => absurd hd (by decide)
  · rw [hline]; exact fun hd => absurd hd (by decide)
  · exact fun hd => absurd hd (by decide)
  · rw [hstate, hrx]; exact ⟨rfl, rfl, rfl, rfl⟩
  · rw [hstate, htx]; exact ⟨rfl, rfl⟩
  · rw [hstate]; exact fun hd => absurd hd (by decide)
  · rw [hrx]; exact fun hd => absurd hd (by decide)
  · rw [hline]; exact fun hd => absurd hd (by decide)

/-! ### Entering Idle, and aborts -/

/-- The entry of Idle is that of Idle or, with a frame pending, of TxFreeTime, on the contexts it has reset (R225). -/
theorem enter_idle_eq (line : Option Level) (s : State) :
    enter .idle line s = enter (if s.tx.len = 0 then .idle else .txFreeTime) line (idleResets s) := by
  by_cases h : s.tx.len = 0
  · rw [if_pos h, enter_idle_of_eq line s h, enter_idle_of_eq line (idleResets s) h]
    rfl
  · rw [if_neg h, enter_idle_of_ne line s h]
    rfl

/-- Idle can be entered from any canonical state: its entry resets what the invariant speaks of. -/
theorem enter_idle_protoInv (line : Option Level) {s : State} (hb : buffersWf s) (hl : registersLegal s) :
    ProtoInv (enter .idle line s) := by
  obtain ⟨-, -, -, hlen, hresends⟩ := (registersLegal_iff s).1 hl
  have hlegal : registersLegal (idleResets s) :=
    registersLegal_mapTx (registersLegal_mapRx hl (Nat.zero_le _)) (Nat.zero_le _) hlen hresends
  rw [enter_idle_eq]
  split
  next h0 =>
    exact enter_protoInv line ⟨hb, hlegal, fun hd => absurd hd (by decide), fun _ => h0, ⟨rfl, rfl, rfl, rfl⟩,
      fun _ => ⟨rfl, rfl⟩, rfl, fun _ => Or.inl rfl⟩ (by decide)
  next h0 =>
    exact enter_protoInv line ⟨hb, hlegal, fun _ => h0, fun hd => absurd hd (by decide), ⟨rfl, rfl, rfl, rfl⟩,
      fun _ => trivial, rfl, fun _ => Or.inl rfl⟩ (by decide)

theorem raiseAbort_protoInv (cause : AbortCause) {s : State} (hb : buffersWf s) (hl : registersLegal s) :
    ProtoInv (raiseAbort cause s) :=
  enter_idle_protoInv none hb (registersLegal_of_eq hl rfl rfl rfl rfl rfl)

/-! ### The cursor at the end of a bit -/

/-- INC_BIT in the initiator half of the header stays in the header byte, and reaches bit 4 or stays below it. -/
theorem incBit_headerInit {b : BitBuffer} (hbyte : b.byte = 0) (hbit : b.bit.toNat < 4) :
    b.incBit.byte = 0 ∧ (b.incBit.bit ≠ 4 → b.incBit.bit.toNat < 4) := by
  have hlt : b.byte.toNat < 16 := by rw [hbyte]; decide
  obtain ⟨hinc, hkeep⟩ := incBit_of_lt hlt (by omega)
  refine ⟨hkeep.trans hbyte, fun hne => ?_⟩
  have hne' : b.incBit.bit.toNat ≠ 4 := fun h4 => hne (BitVec.eq_of_toNat_eq h4)
  omega

/-- INC_BIT wraps to bit 0 of the next byte, or goes up within the byte. -/
theorem incBit_wraps_or_rises {b : BitBuffer} (hlt : b.byte.toNat < 16) :
    (b.incBit.bit = 0 ∧ b.incBit.byte.toNat = b.byte.toNat + 1) ∨
      (b.incBit.bit ≠ 0 ∧ b.incBit.byte = b.byte ∧ b.bit.toNat < b.incBit.bit.toNat) := by
  by_cases h7 : b.bit.toNat < 7
  · obtain ⟨hinc, hkeep⟩ := incBit_of_lt hlt h7
    refine Or.inr ⟨fun h0 => ?_, hkeep, by omega⟩
    rw [h0] at hinc
    exact absurd hinc (by simp)
  · exact Or.inl (incBit_of_eq hlt (by omega))

/-! ### Receiving -/

/-- What the receive states have in common: the line released, no broadcast NAK noted, the transmit cursor at rest. -/
structure Receiving (s : State) : Prop where
  buffers : buffersWf s
  legal : registersLegal s
  line : s.gpioOut = released
  noNak : s.rx.bnack = false
  txRest : s.tx.bb.bit = 0 ∧ s.tx.bb.byte = 0

theorem PState.isTx_of_isRx {p : PState} (hp : p.isRx = true) : p.isTx = false := by
  simp only [PState.isRx, decide_eq_true_eq] at hp
  simp only [PState.isTx, Bool.and_eq_false_iff, decide_eq_false_iff_not]
  omega

/-- Outside transmission the transmit cursor is at rest. -/
theorem txPlace_of_not_isTx {p : PState} (hp : p.isTx = false) (tx : TxCtx) :
    txPlace p tx ↔ tx.bb.bit = 0 ∧ tx.bb.byte = 0 := by
  cases p with
  | txFreeTime | txStartLow | txStartHigh | txHeaderInitLow | txHeaderInitHigh | txHeaderDestLow | txHeaderDestHigh
  | txDataLow | txDataHigh | txEomLow | txEomHigh | txAckLow | txAckHigh | txAckVerify => cases hp
  | _ => exact Iff.rfl

theorem ProtoInv.receiving {s : State} (h : ProtoInv s) (htx : s.state.isTx = false)
    (hline : mayHoldLow s.state = false) : Receiving s where
  buffers := h.buffers
  legal := h.legal
  line := h.released_of hline
  noNak := h.noNak_of fun hs => by rw [hs] at hline; cases hline
  txRest := (txPlace_of_not_isTx htx s.tx).1 h.txAt

theorem Receiving.mapRx {s : State} (h : Receiving s) {f : RxCtx → RxCtx} (hw : Memory.wf (f s.rx).bb.buf = true)
    (hb : (f s.rx).bb.byte.toNat ≤ 16) (hn : (f s.rx).bnack = false) : Receiving (s.mapRx f) where
  buffers := ⟨hw, h.buffers.2⟩
  legal := registersLegal_mapRx h.legal hb
  line := h.line
  noNak := hn
  txRest := h.txRest

theorem Receiving.rxByte_le {s : State} (h : Receiving s) : s.rx.bb.byte.toNat ≤ 16 :=
  ((registersLegal_iff s).1 h.legal).2.1

/-- A receive state is entered with the receive cursor in its place. -/
theorem Receiving.enter {s : State} (h : Receiving s) {p : PState} (line : Option Level) (hp : p.isRx = true)
    (hrx : rxPlace p s.rx) : ProtoInv (enter p line s) := by
  have htx := PState.isTx_of_isRx hp
  refine enter_protoInv line ⟨h.buffers, h.legal, ?_, ?_, hrx, fun _ => (txPlace_of_not_isTx htx _).2 h.txRest, h.noNak, ?_⟩ ?_
  · rw [htx]; exact fun hd => absurd hd (by decide)
  · rintro rfl; exact absurd hp (by decide)
  · rw [h.line]; exact fun hd => absurd hd (by decide)
  · rintro rfl; exact absurd hp (by decide)

theorem Receiving.raiseAbort {s : State} (h : Receiving s) (cause : AbortCause) : ProtoInv (raiseAbort cause s) :=
  raiseAbort_protoInv cause h.buffers h.legal

theorem Receiving.debounceReset {s : State} (h : Receiving s) : Receiving (debounceReset s) :=
  h.mapRx h.buffers.1 h.rxByte_le h.noNak

/-- Storing a bit moves no cursor, so `next` need only be a state with the same place. -/
theorem Receiving.receiveBitLow {s : State} (h : Receiving s) {next : PState} (t : Tick) (hp : next.isRx = true)
    (hrx : ∀ v, rxPlace next { s.rx with bb := s.rx.bb.setBit v, low := t }) : ProtoInv (receiveBitLow next t s) := by
  unfold Machine.receiveBitLow
  split
  · exact h.raiseAbort _
  · refine Receiving.enter (h.mapRx (setBit_wf _ h.buffers.1) ?_ h.noNak) none hp (hrx _)
    rw [setBit_byte]
    exact h.rxByte_le

theorem Receiving.receiveEomLow {s : State} (h : Receiving s) (t : Tick) (hrx : rxPlace .rxEomLow s.rx) :
    ProtoInv (receiveEomLow t s) := by
  obtain ⟨hbit, hpos, hle, -⟩ := hrx
  unfold Machine.receiveEomLow
  split
  · exact h.raiseAbort _
  · exact Receiving.enter (h.mapRx h.buffers.1 h.rxByte_le h.noNak) none rfl ⟨hbit, hpos, hle⟩

theorem Receiving.receiveBitHigh {s : State} (h : Receiving s) {stop : BitVec 3} {last more : PState} (t : Tick)
    (hlast : last.isRx = true) (hmore : more.isRx = true)
    (hend : s.rx.bb.incBit.bit = stop → rxPlace last { s.rx with bb := s.rx.bb.incBit })
    (hgo : s.rx.bb.incBit.bit ≠ stop → rxPlace more { s.rx with bb := s.rx.bb.incBit }) :
    ProtoInv (receiveBitHigh stop last more t s) := by
  have hmap : Receiving (s.mapRx fun rx => { rx with bb := rx.bb.incBit }) :=
    h.mapRx (incBit_buf s.rx.bb ▸ h.buffers.1) (incBit_byte_le h.rxByte_le) h.noNak
  unfold Machine.receiveBitHigh
  split
  · split
    next hstop => exact hmap.enter none hlast (hend hstop)
    next hstop => exact hmap.enter none hmore (hgo hstop)
  · exact h.raiseAbort _

theorem Receiving.receiveEomHigh {s : State} (h : Receiving s) (t : Tick) (hrx : rxPlace .rxEomHigh s.rx) :
    ProtoInv (receiveEomHigh t s) := by
  unfold Machine.receiveEomHigh
  split
  · exact h.enter none rfl hrx
  · exact h.raiseAbort _

theorem Receiving.captureRxStartLow {s : State} (h : Receiving s) (t : Tick) (hrx : rxPlace .rxStartLow s.rx) :
    ProtoInv (captureRxStartLow t s) := by
  unfold Machine.captureRxStartLow
  split
  · obtain ⟨hbit, hbyte, heom, -⟩ := hrx
    exact Receiving.enter (h.debounceReset.mapRx h.buffers.1 h.rxByte_le h.noNak) none rfl ⟨hbit, hbyte, heom⟩
  · exact h.enter none rfl hrx
  · exact h.debounceReset.raiseAbort _

/-- Every capture the block has armed keeps the protocol invariant (R273 to R285). -/
theorem captureIn_protoInv {s : State} {p : PState} (t : Tick) (h : ProtoInv s) (hs : s.state = p)
    (harm : s.armEdge ≠ .none) : ProtoInv (captureIn p t s) := by
  have hrx : rxPlace p s.rx := hs ▸ h.rxAt
  have hrec : p.isTx = false → mayHoldLow p = false → Receiving s := by subst hs; exact h.receiving
  cases p with
  | idle => exact (hrec rfl rfl).enter none rfl hrx
  | txFreeTime =>
    obtain ⟨-, -, -, hlen, hresends⟩ := (registersLegal_iff s).1 h.legal
    have hdeferred : Receiving (s.mapTx resetTxCursor) :=
      ⟨h.buffers, registersLegal_mapTx h.legal (Nat.zero_le _) hlen hresends, h.released_of (by rw [hs]; rfl),
        h.noNak_of (by rw [hs]; decide), ⟨rfl, rfl⟩⟩
    exact hdeferred.enter none rfl hrx
  | rxStartLow => exact (hrec rfl rfl).captureRxStartLow t hrx
  | rxStartHigh =>
    obtain ⟨hbit, hbyte, heom⟩ := hrx
    simp only [captureIn, captureRxStartHigh]
    split
    · exact (hrec rfl rfl).enter none rfl ⟨hbyte, by rw [hbit]; decide, heom⟩
    · exact (hrec rfl rfl).raiseAbort _
  | rxHeaderInitLow => exact (hrec rfl rfl).receiveBitLow t rfl fun v => by simpa [rxPlace] using hrx
  | rxHeaderDestLow => exact (hrec rfl rfl).receiveBitLow t rfl fun v => by simpa [rxPlace] using hrx
  | rxDataLow => exact (hrec rfl rfl).receiveBitLow t rfl fun v => by simpa [rxPlace] using hrx
  | rxHeaderInitHigh =>
    obtain ⟨hbyte, hbit, heom⟩ := hrx
    obtain ⟨hkeep, hbelow⟩ := incBit_headerInit hbyte hbit
    refine (hrec rfl rfl).receiveBitHigh t rfl rfl (fun h4 => ⟨hkeep, ?_, heom⟩) fun h4 => ⟨hkeep, hbelow h4, heom⟩
    show 4 ≤ s.rx.bb.incBit.bit.toNat
    rw [h4]
    decide
  | rxHeaderDestHigh =>
    obtain ⟨hbyte, hbit, heom⟩ := hrx
    have hzero : s.rx.bb.byte.toNat = 0 := by rw [hbyte]; rfl
    rcases incBit_wraps_or_rises (b := s.rx.bb) (by omega) with ⟨hwrap, hnext⟩ | ⟨hne, hkeep, hrise⟩
    · refine (hrec rfl rfl).receiveBitHigh t rfl rfl (fun h0 => ⟨h0, ?_, ?_, heom⟩) (absurd hwrap)
      all_goals simp only [maxLen]; omega
    · exact (hrec rfl rfl).receiveBitHigh t rfl rfl (absurd · hne) fun _ =>
        ⟨hkeep.trans hbyte, hbit.trans hrise.le, heom⟩
  | rxDataHigh =>
    obtain ⟨hpos, hlt, heom⟩ := hrx
    rcases incBit_wraps_or_rises (b := s.rx.bb) hlt with ⟨hwrap, hnext⟩ | ⟨hne, hkeep, -⟩
    · refine (hrec rfl rfl).receiveBitHigh t rfl rfl (fun h0 => ⟨h0, ?_, ?_, heom⟩) (absurd hwrap)
      all_goals simp only [maxLen] at hlt ⊢; omega
    · refine (hrec rfl rfl).receiveBitHigh t rfl rfl (absurd · hne) fun _ => ?_
      simp only [rxPlace, hkeep]
      exact ⟨hpos, hlt, heom⟩
  | rxEomLow => exact (hrec rfl rfl).receiveEomLow t hrx
  | rxEomHigh => exact (hrec rfl rfl).receiveEomHigh t hrx
  | rxAckFinish =>
    obtain ⟨heom, hlt⟩ := h.frameGoesOn hs harm
    obtain ⟨-, hpos, -⟩ := hrx
    exact (hrec rfl rfl).enter none rfl ⟨hpos, hlt, heom⟩
  | _ => exact h

/-! ### Transmitting -/

/-- What the transmit states have in common: a frame pending, no broadcast NAK noted, the receive context at rest. -/
structure Transmitting (s : State) : Prop where
  buffers : buffersWf s
  legal : registersLegal s
  pending : s.tx.len ≠ 0
  noNak : s.rx.bnack = false
  rxRest : s.rx.bb.bit = 0 ∧ s.rx.bb.byte = 0 ∧ s.rx.eom = false ∧ s.rx.low = 0

/-- In transmission the receive context is at rest. -/
theorem rxPlace_of_isTx {p : PState} (hp : p.isTx = true) (rx : RxCtx) :
    rxPlace p rx ↔ rx.bb.bit = 0 ∧ rx.bb.byte = 0 ∧ rx.eom = false ∧ rx.low = 0 := by
  cases p with
  | rxStartHigh | rxHeaderInitLow | rxHeaderInitHigh | rxHeaderDestLow | rxHeaderDestHigh | rxEomLow | rxEomHigh
  | rxAckLow | rxAckVerify | rxAckFinish | rxDataLow | rxDataHigh => cases hp
  | _ => exact Iff.rfl

theorem ProtoInv.transmitting {s : State} (h : ProtoInv s) (hs : s.state.isTx = true) : Transmitting s where
  buffers := h.buffers
  legal := h.legal
  pending := h.pending hs
  noNak := h.noNak_of fun hv => by rw [hv] at hs; cases hs
  rxRest := (rxPlace_of_isTx hs s.rx).1 h.rxAt

/-- Every transmit state but TxAckVerify drives the line. -/
theorem tableDrive_isSome_of_isTx {p : PState} (hp : p.isTx = true) (hv : p ≠ .txAckVerify) (s : State) :
    (tableDrive s p).isSome = true := by
  cases p with
  | txFreeTime | txStartLow | txStartHigh | txHeaderInitLow | txHeaderInitHigh | txHeaderDestLow | txHeaderDestHigh
  | txDataLow | txDataHigh | txEomLow | txEomHigh | txAckLow | txAckHigh => rfl
  | txAckVerify => exact absurd rfl hv
  | _ => cases hp

/-- A transmit state is entered with the transmit cursor in its place, and TxAckVerify with the line released. -/
theorem Transmitting.enter {s : State} (h : Transmitting s) {p : PState} (line : Option Level) (hp : p.isTx = true)
    (htx : p ≠ .txStartLow → txPlace p s.tx) (hline : p = .txAckVerify → s.gpioOut = released) :
    ProtoInv (enter p line s) := by
  refine enter_protoInv line ⟨h.buffers, h.legal, fun _ => h.pending, ?_, (rxPlace_of_isTx hp _).2 h.rxRest, htx, h.noNak,
    fun hlow => Or.inl (tableDrive_isSome_of_isTx hp (fun hv => ?_) s)⟩ ?_
  · rintro rfl; cases hp
  · rw [hline hv] at hlow; cases hlow
  · rintro rfl; cases hp

theorem Transmitting.transmitBitHigh {s : State} (h : Transmitting s) {stop : BitVec 3} {last more : PState} (line : Level)
    (hlast : last.isTx = true ∧ last ≠ .txAckVerify) (hmore : more.isTx = true ∧ more ≠ .txAckVerify)
    (hend : s.tx.bb.incBit.bit = stop → txPlace last { s.tx with bb := s.tx.bb.incBit })
    (hgo : s.tx.bb.incBit.bit ≠ stop → txPlace more { s.tx with bb := s.tx.bb.incBit }) :
    ProtoInv (transmitBitHigh stop last more line s) := by
  obtain ⟨-, -, hbyte, hlen, hresends⟩ := (registersLegal_iff s).1 h.legal
  have hmap : Transmitting (s.mapTx fun tx => { tx with bb := tx.bb.incBit }) :=
    ⟨⟨h.buffers.1, incBit_buf s.tx.bb ▸ h.buffers.2⟩, registersLegal_mapTx h.legal (incBit_byte_le hbyte) hlen hresends,
      h.pending, h.noNak, h.rxRest⟩
  unfold Machine.transmitBitHigh
  split
  next hstop => exact hmap.enter _ hlast.1 (fun _ => hend hstop) (absurd · hlast.2)
  next hstop => exact hmap.enter _ hmore.1 (fun _ => hgo hstop) (absurd · hmore.2)

/-- A completed transmission clears the length and the resend count, and Idle is entered (R303). -/
theorem finishSend_protoInv (n : Notif) (line : Level) {s : State} (hb : buffersWf s) (hl : registersLegal s) :
    ProtoInv (finishSend n line s) := by
  obtain ⟨-, -, hbyte, -, -⟩ := (registersLegal_iff s).1 hl
  have hcleared : registersLegal (s.mapTx fun tx => { tx with len := 0, resends := 0 }) :=
    registersLegal_mapTx hl hbyte (Nat.zero_le _) (Nat.zero_le _)
  exact enter_idle_protoInv _ hb (registersLegal_of_eq hcleared rfl rfl rfl rfl rfl)

/-- The end of the ACK bit: the frame is over, goes on with its next byte, or is sent again (R303). -/
theorem Transmitting.timeoutTxAckVerify {s : State} (h : Transmitting s) (line : Level)
    (htx : txPlace .txAckVerify s.tx) : ProtoInv (timeoutTxAckVerify line s) := by
  obtain ⟨hbit, hpos, hle⟩ := htx
  obtain ⟨-, -, hbyte, hlen, -⟩ := (registersLegal_iff s).1 h.legal
  unfold Machine.timeoutTxAckVerify
  split
  · split
    · exact finishSend_protoInv _ line h.buffers h.legal
    next heom =>
      have hne : s.tx.bb.byte ≠ s.tx.len := fun heq => heom ((isEom_iff _ _).2 ⟨hbit, heq⟩)
      have hlt : s.tx.bb.byte.toNat < s.tx.len.toNat :=
        lt_of_le_of_ne hle fun heq => hne (BitVec.eq_of_toNat_eq heq)
      exact h.enter _ rfl (fun _ => ⟨hpos, hlt⟩) (absurd · (by decide))
  · split
    next hmore =>
      have hinc : (s.tx.resends + 1).toNat ≤ 5 := by
        have h1 : (1 : BitVec 3).toNat = 1 := rfl
        rw [BitVec.toNat_add, h1]
        simp only [maxResends] at hmore
        omega
      have hagain : Transmitting (s.mapTx fun tx => { tx with resends := tx.resends + 1 }) :=
        ⟨h.buffers, registersLegal_mapTx h.legal hbyte hlen hinc, h.pending, h.noNak, h.rxRest⟩
      exact hagain.enter _ rfl (fun _ => trivial) (absurd · (by decide))
    · exact finishSend_protoInv _ line h.buffers h.legal

/-! ### The ACK slot of a received byte -/

/-- The sample of the ACK slot: a line the block pulls is the ACK of a direct frame (R305). -/
theorem enter_rxAckVerify_protoInv {s : State} (line : Level) (h : ProtoInv s) (hs : s.state = .rxAckLow) :
    ProtoInv (enter .rxAckVerify (some line) s) := by
  have hrx : rxPlace .rxAckLow s.rx := hs ▸ h.rxAt
  have htx : txPlace .rxAckLow s.tx := hs ▸ h.txAt
  exact enter_protoInv _ ⟨h.buffers, h.legal, fun hd => absurd hd (by decide), fun hd => absurd hd (by decide), hrx,
    fun _ => htx, h.noNak_of (by rw [hs]; decide), fun hlow => Or.inr ⟨rfl, h.notBroadcast hs hlow⟩⟩ (by decide)

/-- R306. -/
theorem timeoutRxAckVerify_protoInv {s : State} (line : Level) (h : ProtoInv s) (hs : s.state = .rxAckVerify) :
    ProtoInv (timeoutRxAckVerify line s) := by
  have hrx : rxPlace .rxAckVerify s.rx := hs ▸ h.rxAt
  have htx : txPlace .rxAckVerify s.tx := hs ▸ h.txAt
  unfold timeoutRxAckVerify
  split
  · exact raiseAbort_protoInv _ h.buffers h.legal
  next hnak =>
    exact enter_protoInv _ ⟨h.buffers, h.legal, fun hd => absurd hd (by decide), fun hd => absurd hd (by decide), hrx,
      fun _ => htx, Bool.eq_false_of_not_eq_true hnak, fun _ => Or.inl rfl⟩ (by decide)

/-- R307. -/
theorem timeoutRxAckFinish_protoInv {s : State} (line : Level) (h : ProtoInv s) :
    ProtoInv (timeoutRxAckFinish line s) := by
  unfold timeoutRxAckFinish
  split
  · exact enter_idle_protoInv _ h.buffers h.legal
  · exact raiseAbort_protoInv _ h.buffers h.legal

/-! ### Timeouts -/

/-- Every timeout the block has armed keeps the protocol invariant (R290 to R308). -/
theorem timeoutIn_protoInv {s : State} {p : PState} (line : Level) (h : ProtoInv s) (hs : s.state = p) :
    ProtoInv (timeoutIn p line s) := by
  have htx : txPlace p s.tx := hs ▸ h.txAt
  have hsend : p.isTx = true → Transmitting s := by subst hs; exact h.transmitting
  cases p with
  | disabled | idle => exact h
  | txFreeTime => exact (hsend rfl).enter _ rfl (absurd rfl) (absurd · (by decide))
  | txStartHigh =>
    obtain ⟨hbit, hbyte⟩ := htx
    exact (hsend rfl).enter _ rfl (fun _ => ⟨hbyte, by rw [hbit]; decide⟩) (absurd · (by decide))
  | txHeaderInitHigh =>
    obtain ⟨hbyte, hbit⟩ := htx
    obtain ⟨hkeep, hbelow⟩ := incBit_headerInit hbyte hbit
    refine (hsend rfl).transmitBitHigh line ⟨rfl, by decide⟩ ⟨rfl, by decide⟩ (fun h4 => ⟨hkeep, ?_⟩)
      fun h4 => ⟨hkeep, hbelow h4⟩
    show 4 ≤ s.tx.bb.incBit.bit.toNat
    rw [h4]
    decide
  | txHeaderDestHigh =>
    obtain ⟨hbyte, hbit⟩ := htx
    have hzero : s.tx.bb.byte.toNat = 0 := by rw [hbyte]; rfl
    have hlen : s.tx.len.toNat ≠ 0 := fun h0 => (hsend rfl).pending (BitVec.eq_of_toNat_eq h0)
    rcases incBit_wraps_or_rises (b := s.tx.bb) (by omega) with ⟨hwrap, hnext⟩ | ⟨hne, hkeep, hrise⟩
    · refine (hsend rfl).transmitBitHigh line ⟨rfl, by decide⟩ ⟨rfl, by decide⟩ (fun h0 => ⟨h0, ?_, ?_⟩) (absurd hwrap)
      all_goals simp only; omega
    · exact (hsend rfl).transmitBitHigh line ⟨rfl, by decide⟩ ⟨rfl, by decide⟩ (absurd · hne) fun _ =>
        ⟨hkeep.trans hbyte, hbit.trans hrise.le⟩
  | txDataHigh =>
    obtain ⟨hpos, hlt⟩ := htx
    obtain ⟨-, -, -, hlen, -⟩ := (registersLegal_iff s).1 h.legal
    rcases incBit_wraps_or_rises (b := s.tx.bb) (by omega) with ⟨hwrap, hnext⟩ | ⟨hne, hkeep, -⟩
    · refine (hsend rfl).transmitBitHigh line ⟨rfl, by decide⟩ ⟨rfl, by decide⟩ (fun h0 => ⟨h0, ?_, ?_⟩) (absurd hwrap)
      all_goals simp only; omega
    · refine (hsend rfl).transmitBitHigh line ⟨rfl, by decide⟩ ⟨rfl, by decide⟩ (absurd · hne) fun _ => ?_
      simp only [txPlace, hkeep]
      exact ⟨hpos, hlt⟩
  | txAckHigh => exact (hsend rfl).enter _ rfl (fun _ => htx) fun _ => h.released_of (by rw [hs]; rfl)
  | txAckVerify => exact (hsend rfl).timeoutTxAckVerify line htx
  | txStartLow | txHeaderInitLow | txHeaderDestLow | txDataLow | txEomLow | txEomHigh | txAckLow =>
    exact (hsend rfl).enter _ rfl (fun _ => htx) (absurd · (by decide))
  | rxStartLow =>
    obtain ⟨-, hbyte, -⟩ := (registersLegal_iff s).1 h.legal
    exact raiseAbort_protoInv _ h.buffers (registersLegal_mapRx h.legal hbyte)
  | rxDebounce => exact enter_idle_protoInv _ h.buffers h.legal
  | rxAckLow => exact enter_rxAckVerify_protoInv line h hs
  | rxAckVerify => exact timeoutRxAckVerify_protoInv line h hs
  | rxAckFinish => exact timeoutRxAckFinish_protoInv line h
  | _ => exact raiseAbort_protoInv _ h.buffers h.legal

/-! ### Operations -/

/-- ProtoInv speaks of the registers alone: what the model records beside them does not matter. -/
theorem protoInv_beginStep {s : State} (h : ProtoInv s) : ProtoInv s.beginStep := h

theorem protoInv_refuseInput {s : State} (why : RefusedInput) (h : ProtoInv s) : ProtoInv (refuseInput why s) := h

theorem protoInv_reply {s : State} (r : Result) (h : ProtoInv s) : ProtoInv (s.reply r) := h

theorem protoInv_withInputs {s : State} (rest : List Input) (h : ProtoInv s) : ProtoInv { s with inputs := rest } := h

/-- Any legal address may be stored, in every state (R322). -/
theorem protoInv_withLaddr {s : State} {a : BitVec 8} (h : ProtoInv s) (ha : legalAddr a = true) :
    ProtoInv { s with laddr := a } := by
  obtain ⟨⟨hb, hl, hbase⟩, hproto⟩ := h
  obtain ⟨-, hrest⟩ := (registersLegal_iff s).1 hl
  exact ⟨⟨hb, (registersLegal_iff _).2 ⟨ha, hrest⟩, hbase⟩, hproto⟩

/-- A frame accepted in Idle starts its free time at once (R323). -/
theorem acceptFrame_transmitting {s : State} {n : BitVec 5} (d : List Byte) (h : ProtoInv s) (hs : s.state = .idle)
    (hn : n ≠ 0) (hle : n.toNat ≤ maxLen) : Transmitting (acceptFrame n d s) := by
  obtain ⟨-, -, hbyte, -⟩ := (registersLegal_iff s).1 h.legal
  have hrx : rxPlace .idle s.rx := hs ▸ h.rxAt
  exact ⟨⟨h.buffers.1, load_wf d hle h.buffers.2⟩,
    registersLegal_mapTx (f := fun tx => { tx with bb := tx.bb.load n.toNat d, len := n, resends := 0 })
      h.legal hbyte hle (Nat.zero_le _), hn, h.noNak_of (by rw [hs]; decide), hrx⟩

/-- A frame accepted in a receive state waits: nothing but TX_BUF, TX_LEN and TX_RESENDS is written (R323, R324). -/
theorem acceptFrame_protoInv {s : State} {n : BitVec 5} (d : List Byte) (h : ProtoInv s) (hd : s.state ≠ .disabled)
    (hi : s.state ≠ .idle) (htx : s.state.isTx = false) (hn : n ≠ 0) (hle : n.toNat ≤ maxLen) :
    ProtoInv (acceptFrame n d s) := by
  have hrest := (txPlace_of_not_isTx htx s.tx).1 h.txAt
  obtain ⟨-, -, hbyte, -⟩ := (registersLegal_iff s).1 h.legal
  have hlegal := registersLegal_mapTx (f := fun tx => { tx with bb := tx.bb.load n.toNat d, len := n, resends := 0 })
    h.legal hbyte hle (Nat.zero_le _)
  obtain ⟨⟨hb, -, -, -, hbase⟩, -, hrx, -, hproto⟩ := h
  exact ⟨⟨⟨hb.1, load_wf d hle hb.2⟩, hlegal, fun _ => hn, fun hs => absurd hs hi, hbase⟩, fun hs => absurd hs hd, hrx,
    (txPlace_of_not_isTx htx _).2 hrest, hproto⟩

/-- Every input operation keeps the protocol invariant. -/
theorem exec_protoInv {i : Instr} {s t : State} (hi : i.isInputOp = true) (hs : ProtoInv s) (h : exec i s = .next t) :
    ProtoInv t := by
  cases i with
  | evCapture e =>
    simp only [exec, execEvCapture] at h
    split at h
    · cases h; exact protoInv_beginStep hs
    next harm =>
      split at h <;> cases h
      · exact protoInv_refuseInput _ hs
      · exact captureIn_protoInv e (protoInv_beginStep hs) rfl harm
  | evTimeout l =>
    simp only [exec, execEvTimeout] at h
    split at h <;> cases h
    · exact timeoutIn_protoInv l (protoInv_beginStep hs) rfl
    · exact protoInv_beginStep hs
  | cmdEnable =>
    cases h
    split
    · exact enter_idle_protoInv none hs.buffers (protoInv_beginStep hs).legal
    · exact protoInv_beginStep hs
  | cmdDisable => cases h; exact enter_disabled_protoInv none hs.buffers (protoInv_beginStep hs).legal
  | cmdSetAddr a =>
    cases h
    split
    next ha => exact protoInv_reply .ok (protoInv_withLaddr (protoInv_beginStep hs) ha)
    next => exact protoInv_reply .rejected (protoInv_beginStep hs)
  | cmdSubmit n d =>
    have hb := protoInv_beginStep hs
    cases h
    split
    · exact protoInv_reply .disabled hb
    next hd =>
      split
      · exact protoInv_reply .invalid hb
      next hvalid =>
        obtain ⟨hn, hle⟩ := not_or.1 hvalid
        split
        · exact protoInv_reply .busy hb
        next hfree =>
          split
          next hidle =>
            exact (acceptFrame_transmitting d hb hidle hn (not_lt.1 hle)).enter none rfl (fun _ => trivial)
              (absurd · (by decide))
          next hidle =>
            have htx : s.state.isTx = false := Bool.eq_false_of_not_eq_true fun htx => hfree (hs.pending htx)
            exact acceptFrame_protoInv d hb hd hidle htx hn (not_lt.1 hle)
  | _ => cases hi

/-! ### Streams of input words -/

/-- A 32-bit word spells no sub-block operation (R101). -/
theorem decode_evt32_isInputOp {x : Input} {w : BitVec 32} {i : Instr} (hx : x.word = .evt32 w) (h : decode x = .ok i) :
    i.isInputOp = true := by
  simp only [decode, hx, decodeEvt32] at h
  split_ifs at h <;> cases h <;> rfl

/-- What a stream of input words keeps from step to step. -/
structure GoodRun (s : State) : Prop where
  cfg : cfgWf s.cfg = true
  proto : ProtoInv s
  words : onlyInputWords s.inputs

/-- Over input words a step is never refused: it consumes the first one, if there is one, and the state stays good. -/
theorem GoodRun.step {s : State} (h : GoodRun s) :
    ∃ t, step s = .next t ∧ GoodRun t ∧ t.inputs = s.inputs.drop 1 := by
  cases hin : s.inputs with
  | nil => exact ⟨s, step_of_nil h.cfg hin, h, hin⟩
  | cons x rest =>
    have hwords : onlyInputWords rest := fun y hy => h.words y (hin ▸ List.mem_cons_of_mem x hy)
    obtain ⟨w, hw⟩ := h.words x (hin ▸ List.mem_cons_self)
    have hproto := protoInv_withInputs rest h.proto
    cases hd : decode x with
    | ok i =>
      obtain ⟨t, ht⟩ := exec_next i { s with inputs := rest }
      obtain ⟨hcfg, hinputs⟩ := exec_run ht
      exact ⟨t, (step_of_decode h.cfg hin hd).trans ht,
        ⟨hcfg ▸ h.cfg, exec_protoInv (decode_evt32_isInputOp hw hd) hproto ht, hinputs ▸ hwords⟩, hinputs⟩
    | error e =>
      exact ⟨_, step_of_refused h.cfg hin hd, ⟨h.cfg, protoInv_refuseInput _ hproto, hwords⟩, rfl⟩

/-- A run whose first step gives a next state goes on from there. -/
theorem run_succ_of_next {M : Host.Core} {s u : M.State} (h : M.step s = .next u) (k : Nat) :
    M.run (k + 1) s = M.run k u := by
  simp only [Host.Core.run, h]

/-- So a run of any length goes on to its end. -/
theorem GoodRun.run {s : State} (h : GoodRun s) (k : Nat) :
    ∃ t, core.run k s = .next t ∧ GoodRun t ∧ t.inputs = s.inputs.drop k := by
  induction k generalizing s with
  | zero => exact ⟨s, rfl, h, rfl⟩
  | succ k ih =>
    obtain ⟨u, hu, hgood, hdrop⟩ := h.step
    obtain ⟨t, ht, hend, hrest⟩ := ih hgood
    exact ⟨t, (run_succ_of_next (M := core) hu k).trans ht, hend, by rw [hrest, hdrop, List.drop_drop, Nat.add_comm]⟩

/-- Settles O16: each step keeps the protocol invariant and consumes one word, by induction on the number of steps. -/
theorem streamsOfInputWordsNeverStop : Obligations.StreamsOfInputWordsNeverStop := by
  intro s k hcfg hproto hwords
  obtain ⟨t, hrun, hgood, hdrop⟩ := GoodRun.run ⟨hcfg, hproto, hwords⟩ k
  exact ⟨t, hrun, hgood.proto, hdrop⟩

end Sys2Proof.Machine
end

section
/-! SUPPORT. PROOFS. State (10_state.md): both invariants at reset, the base invariant kept by every step, the protocol
invariant kept by every input operation, and the one writer of LADDR. An event enters a target of its column of R310 or
leaves the state as it is, and what an entry leaves is read off R223. -/

namespace Sys2Proof.Machine

/-! ### After reset (O13) -/

theorem reset_registersLegal : registersLegal State.reset :=
  (registersLegal_iff _).2 (by decide)

theorem reset_armMatches : armMatches State.reset :=
  ⟨rfl, fun _ => rfl, fun _ => rfl, by decide⟩

theorem reset_baseInv : BaseInv State.reset :=
  ⟨reset_buffersWf, reset_registersLegal, by decide, by decide, by decide, reset_armMatches⟩

/-- Settles O13: the block is disabled, with the line released, nothing armed and both contexts 0. -/
theorem invariantsHoldAtReset : Obligations.InvariantsHoldAtReset :=
  ⟨reset_baseInv, reset_baseInv, fun _ => ⟨rfl, rfl⟩, ⟨rfl, rfl, rfl, rfl⟩, ⟨rfl, rfl⟩, by decide, by decide, by decide⟩

/-! ### The protocol invariant (O15) -/

/-- Settles O15: every transition enters its next state with the cursors in their places, by `exec_protoInv`. -/
theorem protocolInvariantKeptByInputOperations : Obligations.ProtocolInvariantKeptByInputOperations :=
  fun _ _ _ hi hs h => exec_protoInv hi hs h

/-! ### The logical address (O18) -/

theorem legalAddr_iff (a : BitVec 8) : legalAddr a = true ↔ a.toNat ≤ 15 ∨ a.toNat = 255 := by
  simp only [legalAddr, unregAddr, Bool.or_eq_true, decide_eq_true_eq]

/-- No operation writes LADDR but CMD_SET_ADDR, and that only with a legal operand (R322). -/
theorem exec_laddr {i : Instr} {s t : State} (h : exec i s = .next t) :
    t.laddr = s.laddr ∨ ∃ a, i = .cmdSetAddr a ∧ t.laddr = a ∧ legalAddr a = true := by
  cases i with
  | cmdSetAddr a =>
    cases h
    split
    next ha => exact Or.inr ⟨a, rfl, rfl, ha⟩
    next => exact Or.inl rfl
  | evCapture e =>
    simp only [exec, execEvCapture] at h
    left
    split at h
    · cases h; rfl
    · split at h <;> cases h
      · rfl
      · exact captureIn_laddr _ _ _
  | evTimeout l =>
    simp only [exec, execEvTimeout] at h
    left
    split at h <;> cases h
    · exact timeoutIn_laddr _ _ _
    · rfl
  | cmdEnable =>
    cases h
    left
    split
    · exact enter_laddr _ _ _
    · rfl
  | cmdDisable => cases h; exact Or.inl (enter_laddr _ _ _)
  | cmdSubmit n d =>
    cases h
    left
    split
    · rfl
    · split
      · rfl
      · split
        · rfl
        · split
          · exact enter_laddr _ _ _
          · rfl
  | bbReset b | bbClear b | bbSetBit b | bbIncBit b => cases h; exact Or.inl (withBuffer_laddr _ _ _)
  | bbLoad b n d => cases h; left; split <;> exact withBuffer_laddr _ _ _
  | _ => cases h; exact Or.inl rfl

/-- Settles O18. -/
theorem addressWrittenOnlyBySetAddr : Obligations.AddressWrittenOnlyBySetAddr := by
  intro i s t h
  refine (exec_laddr h).imp_right ?_
  rintro ⟨a, hi, ht, ha⟩
  exact ⟨a, hi, ht, (legalAddr_iff a).1 ha⟩

/-! ### The base invariant: entering a state -/

/-- What must hold before the entry of `p` for BaseInv to hold after it. A line held low may stay so where the entry does
not drive it only in a state that may hold it low. -/
structure BaseEnterable (p : PState) (s : State) : Prop where
  buffers : buffersWf s
  legal : registersLegal s
  pending : p.isTx = true → s.tx.len ≠ 0
  unsent : p = .idle → s.tx.len = 0
  line : s.gpioOut = pulledLow → (tableDrive s p).isSome = true ∨ mayHoldLow p = true

/-- Where the line is low after an entry, the state entered may hold it low (R254). -/
theorem BaseEnterable.mayHoldLow_of_pulled {p : PState} {s : State} (h : BaseEnterable p s)
    (hlow : (tableDrive s p).getD s.gpioOut = pulledLow) : mayHoldLow p = true := by
  cases hd : tableDrive s p with
  | none =>
    rw [hd] at hlow
    refine (h.line hlow).resolve_left fun hsome => ?_
    rw [hd] at hsome
    cases hsome
  | some v =>
    rw [hd] at hlow
    exact mayHoldLow_of_tableDrive (hd.trans (congrArg some hlow))

theorem BaseEnterable.enter {p : PState} {s : State} (h : BaseEnterable p s) (line : Option Level) (hp : p ≠ .disabled) :
    BaseInv (enter p line s) := by
  have hlen := (enter_tx_len p line s hp).1
  refine ⟨enter_buffersWf p line h.buffers, enter_registersLegal p line h.legal, ?_, ?_, ?_,
    enter_armMatches p line s h.unsent⟩
  · rw [enter_state_of p line s h.unsent, hlen]; exact h.pending
  · rw [enter_state_of p line s h.unsent, hlen]; exact h.unsent
  · rw [enter_state_of p line s h.unsent, enter_gpioOut p line s h.unsent]; exact h.mayHoldLow_of_pulled

/-! ### What an event does -/

/-- What an event hands on to the entry of `q`: its own writes keep the buffers canonical and the registers legal, they
leave the line, and they leave TX_LEN where the frame goes on. -/
structure HandsOn (q : PState) (s u : State) : Prop where
  buffers : buffersWf u
  legal : registersLegal u
  line : u.gpioOut = s.gpioOut
  pending : q.isTx = true → u.tx.len = s.tx.len

/-- One of `targets` is entered, from what the event hands on. -/
def Enters (targets : List PState) (s t : State) : Prop :=
  ∃ q ∈ targets, ∃ line u, t = enter q line u ∧ HandsOn q s u

section Events

variable {s : State} {targets : List PState}

theorem handsOn_of_eq (hb : buffersWf s) (hl : registersLegal s) (q : PState) {u : State} (hr : u.rx.bb = s.rx.bb)
    (ht : u.tx = s.tx) (ha : u.laddr = s.laddr) (hg : u.gpioOut = s.gpioOut) : HandsOn q s u where
  buffers := buffersWf_of_eq hb (by rw [hr]) (by rw [ht])
  legal := registersLegal_of_eq hl ha (by rw [hr]) (by rw [ht]) (by rw [ht]) (by rw [ht])
  line := hg
  pending := fun _ => by rw [ht]

theorem handsOn_mapRx (hb : buffersWf s) (hl : registersLegal s) (q : PState) {f : RxCtx → RxCtx}
    (hw : Memory.wf (f s.rx).bb.buf = true) (hbyte : (f s.rx).bb.byte.toNat ≤ 16) : HandsOn q s (s.mapRx f) :=
  ⟨⟨hw, hb.2⟩, registersLegal_mapRx hl hbyte, rfl, fun _ => rfl⟩

theorem enters_of {q : PState} {u : State} (hq : q ∈ targets) (line : Option Level) (h : HandsOn q s u) :
    Enters targets s (enter q line u) := ⟨q, hq, line, u, rfl, h⟩

/-- An abort enters Idle (R350). -/
theorem raiseAbort_enters (hi : .idle ∈ targets) (cause : AbortCause) {u : State} (h : HandsOn .idle s u) :
    Enters targets s (raiseAbort cause u) :=
  enters_of hi none ⟨h.buffers, registersLegal_of_eq h.legal rfl rfl rfl rfl rfl, h.line, h.pending⟩

variable (hb : buffersWf s) (hl : registersLegal s)
include hb hl

/-- Nothing is written before the entry. -/
theorem handsOn_self (q : PState) : HandsOn q s s := handsOn_of_eq hb hl q rfl rfl rfl rfl

theorem receiveBitLow_enters {next : PState} (t : Tick) (hn : next ∈ targets) (hi : .idle ∈ targets) :
    Enters targets s (receiveBitLow next t s) := by
  obtain ⟨-, hbyte, -⟩ := (registersLegal_iff s).1 hl
  unfold receiveBitLow
  split
  · exact raiseAbort_enters hi _ (handsOn_self hb hl _)
  · exact enters_of hn none (handsOn_mapRx hb hl _ (setBit_wf _ hb.1) (by rw [setBit_byte]; exact hbyte))

theorem receiveEomLow_enters (t : Tick) : Enters [.rxEomHigh, .idle] s (receiveEomLow t s) := by
  unfold receiveEomLow
  split
  · exact raiseAbort_enters (by decide) _ (handsOn_self hb hl _)
  · exact enters_of (by decide) none (handsOn_of_eq hb hl _ rfl rfl rfl rfl)

theorem receiveBitHigh_enters {stop : BitVec 3} {last more : PState} (t : Tick) :
    Enters [last, more, .idle] s (receiveBitHigh stop last more t s) := by
  obtain ⟨-, hbyte, -⟩ := (registersLegal_iff s).1 hl
  unfold receiveBitHigh
  split
  · refine enters_of ?_ none (handsOn_mapRx hb hl _ (incBit_buf s.rx.bb ▸ hb.1) (incBit_byte_le hbyte))
    split <;> simp only [List.mem_cons, true_or, or_true]
  · exact raiseAbort_enters (by simp only [List.mem_cons, true_or, or_true]) _ (handsOn_self hb hl _)

theorem receiveEomHigh_enters (t : Tick) : Enters [.rxAckLow, .idle] s (receiveEomHigh t s) := by
  unfold receiveEomHigh
  split
  · exact enters_of (by decide) none (handsOn_self hb hl _)
  · exact raiseAbort_enters (by decide) _ (handsOn_self hb hl _)

theorem captureRxStartLow_enters (t : Tick) :
    Enters [.rxStartHigh, .rxDebounce, .idle] s (captureRxStartLow t s) := by
  unfold captureRxStartLow
  split
  · exact enters_of (by decide) none (handsOn_of_eq hb hl _ rfl rfl rfl rfl)
  · exact enters_of (by decide) none (handsOn_self hb hl _)
  · exact raiseAbort_enters (by decide) _ (handsOn_of_eq hb hl _ rfl rfl rfl rfl)

theorem captureRxStartHigh_enters (t : Tick) : Enters [.rxHeaderInitLow, .idle] s (captureRxStartHigh t s) := by
  unfold captureRxStartHigh
  split
  · exact enters_of (by decide) none (handsOn_self hb hl _)
  · exact raiseAbort_enters (by decide) _ (handsOn_self hb hl _)

/-- A collision in the free time resets the transmit cursor; the frame stays pending (R274). -/
theorem captureTxFreeTime_enters : Enters [.rxStartLow] s (captureTxFreeTime s) := by
  obtain ⟨-, -, -, hlen, hresends⟩ := (registersLegal_iff s).1 hl
  exact enters_of (by decide) none ⟨hb, registersLegal_mapTx hl (Nat.zero_le _) hlen hresends, rfl, fun _ => rfl⟩

/-- A capture enters a state of its column of R310, or the state has no rule for it. -/
theorem captureIn_enters (p : PState) (t : Tick) :
    captureIn p t s = s ∨ Enters (captureTargets p) s (captureIn p t s) := by
  cases p with
  | idle => exact Or.inr (enters_of (by decide) none (handsOn_self hb hl _))
  | txFreeTime => exact Or.inr (captureTxFreeTime_enters hb hl)
  | rxStartLow => exact Or.inr (captureRxStartLow_enters hb hl t)
  | rxStartHigh => exact Or.inr (captureRxStartHigh_enters hb hl t)
  | rxHeaderInitLow | rxHeaderDestLow | rxDataLow =>
    exact Or.inr (receiveBitLow_enters hb hl t (by decide) (by decide))
  | rxHeaderInitHigh | rxHeaderDestHigh | rxDataHigh => exact Or.inr (receiveBitHigh_enters hb hl t)
  | rxEomLow => exact Or.inr (receiveEomLow_enters hb hl t)
  | rxEomHigh => exact Or.inr (receiveEomHigh_enters hb hl t)
  | rxAckFinish => exact Or.inr (enters_of (by decide) none (handsOn_self hb hl _))
  | _ => exact Or.inl rfl

theorem transmitBitHigh_enters {stop : BitVec 3} {last more : PState} (line : Level) :
    Enters [last, more] s (transmitBitHigh stop last more line s) := by
  obtain ⟨-, -, hbyte, hlen, hresends⟩ := (registersLegal_iff s).1 hl
  refine enters_of ?_ (some line) ⟨⟨hb.1, incBit_buf s.tx.bb ▸ hb.2⟩,
    registersLegal_mapTx hl (incBit_byte_le hbyte) hlen hresends, rfl, fun _ => rfl⟩
  split <;> simp only [List.mem_cons, true_or, or_true]

/-- A finished transmission clears TX_LEN and TX_RESENDS and enters Idle (R303). -/
theorem finishSend_enters (n : Notif) (line : Level) (hi : .idle ∈ targets) : Enters targets s (finishSend n line s) := by
  obtain ⟨-, -, hbyte, -⟩ := (registersLegal_iff s).1 hl
  have hcleared : registersLegal (s.mapTx fun tx => { tx with len := 0, resends := 0 }) :=
    registersLegal_mapTx hl hbyte (Nat.zero_le _) (Nat.zero_le _)
  exact enters_of hi (some line)
    ⟨hb, registersLegal_of_eq hcleared rfl rfl rfl rfl rfl, rfl, fun hd => absurd hd (by decide)⟩

/-- A frame that was not acknowledged is sent again only below the limit of five (R303). -/
theorem timeoutTxAckVerify_enters (line : Level) :
    Enters [.txDataLow, .idle, .txFreeTime] s (timeoutTxAckVerify line s) := by
  obtain ⟨-, -, hbyte, hlen, -⟩ := (registersLegal_iff s).1 hl
  unfold timeoutTxAckVerify
  split
  · split
    · exact finishSend_enters hb hl _ line (by decide)
    · exact enters_of (by decide) (some line) (handsOn_self hb hl _)
  · split
    next hmore =>
      have hinc : (s.tx.resends + 1).toNat ≤ 5 := by
        rw [BitVec.toNat_add]
        exact (Nat.mod_le _ _).trans hmore
      exact enters_of (by decide) (some line) ⟨hb, registersLegal_mapTx hl hbyte hlen hinc, rfl, fun _ => rfl⟩
    · exact finishSend_enters hb hl _ line (by decide)

theorem timeoutRxAckVerify_enters (line : Level) : Enters [.rxAckFinish, .idle] s (timeoutRxAckVerify line s) := by
  unfold timeoutRxAckVerify
  split
  · exact raiseAbort_enters (by decide) _ (handsOn_self hb hl _)
  · exact enters_of (by decide) (some line) (handsOn_self hb hl _)

theorem timeoutRxAckFinish_enters (line : Level) : Enters [.idle] s (timeoutRxAckFinish line s) := by
  unfold timeoutRxAckFinish
  split
  · exact enters_of (by decide) (some line) (handsOn_self hb hl _)
  · exact raiseAbort_enters (by decide) _ (handsOn_self hb hl _)

/-- A timeout enters a state of its column of R310; Disabled and Idle have no rule for it. -/
theorem timeoutIn_enters (p : PState) (line : Level) :
    timeoutIn p line s = s ∨ Enters (timeoutTargets p) s (timeoutIn p line s) := by
  cases p with
  | disabled | idle => exact Or.inl rfl
  | txFreeTime | txStartLow | txStartHigh | txHeaderInitLow | txHeaderDestLow | txDataLow | txEomLow | txEomHigh
  | txAckLow | txAckHigh | rxDebounce | rxAckLow =>
    exact Or.inr (enters_of (by decide) (some line) (handsOn_self hb hl _))
  | txHeaderInitHigh | txHeaderDestHigh | txDataHigh => exact Or.inr (transmitBitHigh_enters hb hl line)
  | txAckVerify => exact Or.inr (timeoutTxAckVerify_enters hb hl line)
  | rxStartLow => exact Or.inr (raiseAbort_enters (by decide) _ (handsOn_of_eq hb hl _ rfl rfl rfl rfl))
  | rxAckVerify => exact Or.inr (timeoutRxAckVerify_enters hb hl line)
  | rxAckFinish => exact Or.inr (timeoutRxAckFinish_enters hb hl line)
  | _ => exact Or.inr (raiseAbort_enters (by decide) _ (handsOn_self hb hl _))

end Events

/-! ### What the two columns of R310 lead to -/

/-- The states that take a capture hold the line released (R254). -/
theorem captureTargets_mayHoldLow {p q : PState} (hq : q ∈ captureTargets p) : mayHoldLow p = false := by
  cases p with
  | txStartLow | txHeaderInitLow | txHeaderDestLow | txDataLow | txEomLow | txAckLow | rxAckLow | rxAckVerify => cases hq
  | _ => rfl

/-- A capture starts no transmission. -/
theorem captureTargets_isTx (p : PState) : ∀ q ∈ captureTargets p, q.isTx = false := by
  cases p <;> decide

/-- A timeout leads to a transmit state from a transmit state only. -/
theorem timeoutTargets_isTx (p : PState) : ∀ q ∈ timeoutTargets p, q.isTx = true → p.isTx = true := by
  cases p <;> decide

/-- A line held low is driven by the state the timeout enters, or goes on low through the ACK slot (R254). -/
theorem timeoutTargets_line {p q : PState} (hq : q ∈ timeoutTargets p) (hlow : mayHoldLow p = true) (u : State) :
    (tableDrive u q).isSome = true ∨ mayHoldLow q = true := by
  cases p with
  | txStartLow | txHeaderInitLow | txHeaderDestLow | txDataLow | txEomLow | txAckLow =>
    rw [List.mem_singleton.1 hq]; exact Or.inl rfl
  | rxAckLow => rw [List.mem_singleton.1 hq]; exact Or.inr rfl
  | rxAckVerify =>
    rcases List.mem_pair.1 hq with rfl | rfl <;> exact Or.inl rfl
  | _ => cases hlow

/-! ### Events keep the base invariant -/

section Kept

variable {s : State} (h : BaseInv s)
include h

theorem BaseInv.buffers : buffersWf s := h.1

theorem BaseInv.legal : registersLegal s := h.2.1

theorem BaseInv.pending (hs : s.state.isTx = true) : s.tx.len ≠ 0 := by
  obtain ⟨-, -, hpending, -⟩ := h
  exact hpending hs

theorem BaseInv.line (hlow : s.gpioOut = pulledLow) : mayHoldLow s.state = true := by
  obtain ⟨-, -, -, -, hline, -⟩ := h
  exact hline hlow

end Kept

/-- Entering a target keeps the base invariant when a frame is pending where the target transmits, and a low line is driven
by the target or may stay low there. Disabled and Idle, whose entries drive and take any frame, ask for neither. -/
theorem Enters.baseInv {targets : List PState} {s t : State} (h : Enters targets s t)
    (hpending : ∀ q ∈ targets, q.isTx = true → s.tx.len ≠ 0)
    (hline : ∀ q ∈ targets, s.gpioOut = pulledLow → ∀ u, (tableDrive u q).isSome = true ∨ mayHoldLow q = true) :
    BaseInv t := by
  obtain ⟨q, hq, line, u, rfl, hu⟩ := h
  by_cases hd : q = .disabled
  · subst hd
    exact (enter_disabled_protoInv line hu.buffers hu.legal).1
  by_cases hi : q = .idle
  · subst hi
    exact (enter_idle_protoInv line hu.buffers hu.legal).1
  exact BaseEnterable.enter ⟨hu.buffers, hu.legal, fun htx => hu.pending htx ▸ hpending q hq htx, fun h0 => absurd h0 hi,
    fun hlow => hline q hq (hu.line ▸ hlow) u⟩ line hd

theorem captureIn_baseInv {s : State} (t : Tick) (h : BaseInv s) : BaseInv (captureIn s.state t s) := by
  rcases captureIn_enters h.buffers h.legal s.state t with hstay | henter
  · rw [hstay]; exact h
  · refine henter.baseInv (fun q hq htx => ?_) (fun q hq hlow => ?_)
    · exact absurd htx (Bool.eq_false_iff.1 (captureTargets_isTx _ q hq))
    · exact absurd (h.line hlow) (Bool.eq_false_iff.1 (captureTargets_mayHoldLow hq))

theorem timeoutIn_baseInv {s : State} (line : Level) (h : BaseInv s) : BaseInv (timeoutIn s.state line s) := by
  rcases timeoutIn_enters h.buffers h.legal s.state line with hstay | henter
  · rw [hstay]; exact h
  · exact henter.baseInv (fun q hq htx => h.pending (timeoutTargets_isTx _ q hq htx))
      (fun _ hq hlow => timeoutTargets_line hq (h.line hlow))

/-! ### Commands and selectors keep the base invariant -/

/-- BaseInv speaks of the registers alone: what the model records beside them does not matter. -/
theorem baseInv_beginStep {s : State} (h : BaseInv s) : BaseInv s.beginStep := h

theorem baseInv_refuseInput {s : State} (why : RefusedInput) (h : BaseInv s) : BaseInv (refuseInput why s) := h

theorem baseInv_reply {s : State} (r : Result) (h : BaseInv s) : BaseInv (s.reply r) := h

theorem baseInv_giveResult {s : State} (r : SelResult) (h : BaseInv s) : BaseInv (s.giveResult r) := h

theorem baseInv_drawFree {s : State} (h : BaseInv s) : BaseInv s.drawFree := h

theorem baseInv_withInputs {s : State} (rest : List Input) (h : BaseInv s) : BaseInv { s with inputs := rest } := h

/-- Any legal address may be stored, in every state (R322). -/
theorem baseInv_withLaddr {s : State} {a : BitVec 8} (h : BaseInv s) (ha : legalAddr a = true) :
    BaseInv { s with laddr := a } := by
  obtain ⟨hb, hl, hrest⟩ := h
  obtain ⟨-, hregs⟩ := (registersLegal_iff s).1 hl
  exact ⟨hb, (registersLegal_iff _).2 ⟨ha, hregs⟩, hrest⟩

/-- The receive context may change in any way that keeps its buffer canonical and its byte index legal. -/
theorem baseInv_mapRx {s : State} {f : RxCtx → RxCtx} (h : BaseInv s) (hw : Memory.wf (f s.rx).bb.buf = true)
    (hbyte : (f s.rx).bb.byte.toNat ≤ 16) : BaseInv (s.mapRx f) := by
  obtain ⟨hb, hl, hrest⟩ := h
  exact ⟨⟨hw, hb.2⟩, registersLegal_mapRx hl hbyte, hrest⟩

/-- A buffer operation on either buffer keeps the base invariant when it keeps the buffer canonical and the byte index
legal: no other register is written (R140). -/
theorem baseInv_withBuffer {s : State} (b : BufSel) {v : BitBuffer} (h : BaseInv s) (hw : Memory.wf v.buf = true)
    (hbyte : v.byte.toNat ≤ 16) : BaseInv (s.withBuffer b v) := by
  cases b with
  | rx => exact baseInv_mapRx (f := fun rx => { rx with bb := v }) h hw hbyte
  | tx =>
    obtain ⟨hb, hl, hrest⟩ := h
    obtain ⟨-, -, -, hlen, hresends⟩ := (registersLegal_iff s).1 hl
    exact ⟨⟨hb.1, hw⟩, registersLegal_mapTx (f := fun tx => { tx with bb := v }) hl hbyte hlen hresends, hrest⟩

theorem BaseInv.buffer_wf {s : State} (h : BaseInv s) (b : BufSel) : Memory.wf (s.buffer b).buf = true := by
  cases b with
  | rx => exact h.buffers.1
  | tx => exact h.buffers.2

theorem BaseInv.buffer_byte_le {s : State} (h : BaseInv s) (b : BufSel) : (s.buffer b).byte.toNat ≤ 16 := by
  obtain ⟨-, hrx, htx, -⟩ := (registersLegal_iff s).1 h.legal
  cases b with
  | rx => exact hrx
  | tx => exact htx

/-- A LOAD of at most 16 bytes moves no cursor (R147). -/
theorem baseInv_load {s : State} (b : BufSel) {n : Nat} (d : List Byte) (h : BaseInv s) (hn : n ≤ maxLen) :
    BaseInv (s.withBuffer b ((s.buffer b).load n d)) :=
  baseInv_withBuffer b h (load_wf d hn (h.buffer_wf b)) (h.buffer_byte_le b)

theorem acceptFrame_buffersWf {s : State} {n : BitVec 5} (d : List Byte) (h : buffersWf s) (hle : n.toNat ≤ maxLen) :
    buffersWf (acceptFrame n d s) := ⟨h.1, load_wf d hle h.2⟩

theorem acceptFrame_registersLegal {s : State} {n : BitVec 5} (d : List Byte) (h : registersLegal s)
    (hle : n.toNat ≤ maxLen) : registersLegal (acceptFrame n d s) := by
  obtain ⟨-, -, hbyte, -⟩ := (registersLegal_iff s).1 h
  exact registersLegal_mapTx (f := fun tx => { tx with bb := tx.bb.load n.toNat d, len := n, resends := 0 }) h hbyte hle
    (Nat.zero_le _)

/-- A frame accepted outside Idle waits in the state it found (R324). -/
theorem acceptFrame_baseInv {s : State} {n : BitVec 5} (d : List Byte) (h : BaseInv s) (hi : s.state ≠ .idle) (hn : n ≠ 0)
    (hle : n.toNat ≤ maxLen) : BaseInv (acceptFrame n d s) := by
  obtain ⟨hb, hl, -, -, hrest⟩ := h
  exact ⟨acceptFrame_buffersWf d hb hle, acceptFrame_registersLegal d hl hle, fun _ => hn, fun hs => absurd hs hi, hrest⟩

/-- A frame accepted in Idle starts its free time, whose entry releases the line (R323). -/
theorem enter_acceptFrame_baseInv {s : State} {n : BitVec 5} (d : List Byte) (h : BaseInv s) (hn : n ≠ 0)
    (hle : n.toNat ≤ maxLen) : BaseInv (enter .txFreeTime none (acceptFrame n d s)) :=
  BaseEnterable.enter ⟨acceptFrame_buffersWf d h.buffers hle, acceptFrame_registersLegal d h.legal hle, fun _ => hn,
    fun hd => absurd hd (by decide), fun _ => Or.inl rfl⟩ none (by decide)

/-! ### Every step keeps the base invariant (O14) -/

/-- Every operation keeps the base invariant, a selector issued on its own included. -/
theorem exec_baseInv {i : Instr} {s t : State} (hs : BaseInv s) (h : exec i s = .next t) : BaseInv t := by
  have hb := baseInv_beginStep hs
  cases i with
  | evCapture e =>
    simp only [exec, execEvCapture] at h
    split at h
    · cases h; exact hb
    · split at h <;> cases h
      · exact baseInv_refuseInput _ hs
      · exact captureIn_baseInv e hb
  | evTimeout l =>
    simp only [exec, execEvTimeout] at h
    split at h <;> cases h
    · exact timeoutIn_baseInv l hb
    · exact hb
  | cmdEnable =>
    cases h
    split
    · exact (enter_idle_protoInv none hb.buffers hb.legal).1
    · exact hb
  | cmdDisable => cases h; exact (enter_disabled_protoInv none hb.buffers hb.legal).1
  | cmdSetAddr a =>
    cases h
    split
    next ha => exact baseInv_reply .ok (baseInv_withLaddr hb ha)
    next => exact baseInv_reply .rejected hb
  | cmdSubmit n d =>
    cases h
    split
    · exact baseInv_reply .disabled hb
    · split
      · exact baseInv_reply .invalid hb
      next hvalid =>
        obtain ⟨hn, hle⟩ := not_or.1 hvalid
        split
        · exact baseInv_reply .busy hb
        · split
          next => exact enter_acceptFrame_baseInv d hb hn (not_lt.1 hle)
          next hidle => exact acceptFrame_baseInv d hb hidle hn (not_lt.1 hle)
  | bbReset b => cases h; exact baseInv_withBuffer b hb (hs.buffer_wf b) (Nat.zero_le _)
  | bbClear b => cases h; exact baseInv_withBuffer b hb (clear_wf (hs.buffer_wf b)) (Nat.zero_le _)
  | bbSetBit b v =>
    cases h
    exact baseInv_withBuffer b hb (setBit_wf v (hs.buffer_wf b)) (by rw [setBit_byte]; exact hs.buffer_byte_le b)
  | bbIncBit b =>
    cases h
    exact baseInv_withBuffer b hb (incBit_buf (s.buffer b) ▸ hs.buffer_wf b) (incBit_byte_le (hs.buffer_byte_le b))
  | bbLoad b n d =>
    by_cases hle : n.toNat ≤ maxLen
    · rw [exec, execBbLoad_of_le b d s hle] at h
      cases h
      exact baseInv_load b d hb hle
    · rw [exec, execBbLoad_of_gt b d s (Nat.lt_of_not_le hle)] at h
      cases h
      exact baseInv_drawFree (baseInv_load b (freeBytes s.freeDraws) hb (le_refl maxLen))
  | dbfQuiet => cases h; exact baseInv_giveResult _ (baseInv_mapRx hb hb.buffers.1 (hs.buffer_byte_le .rx))
  | dbfReset => cases h; exact baseInv_mapRx hb hb.buffers.1 (hs.buffer_byte_le .rx)
  | bbGetBit | bbIsEom | bbSnapshot | tpIsValidLow | tpIsValidTotal | tpLowDuration | tpHighDuration | tpClassify
  | tpCapLow | tpCapHigh | tpFreeTime | dbfClassify => cases h; exact baseInv_giveResult _ hb

/-- Settles O14: a step waits, runs an operation, or leaves the mark of a refused input. -/
theorem baseInvariantKeptByEveryStep : Obligations.BaseInvariantKeptByEveryStep := by
  intro s t hs h
  obtain ⟨-, ⟨-, rfl⟩ | ⟨x, rest, i, -, -, hexec⟩ | ⟨x, rest, e, -, -, rfl⟩⟩ := step_cases h
  · exact hs
  · exact exec_baseInv (baseInv_withInputs rest hs) hexec
  · exact baseInv_refuseInput _ (baseInv_withInputs rest hs)

end Sys2Proof.Machine
end

section
/-! SUPPORT. PROOFS. Memory (20_memory.md): the cursors stay inside the buffers wherever a byte is touched, because the
protocol invariant names their places (R76), and a pending frame is constant, because only the end of an ACK bit takes it
away (R83). -/

namespace Sys2Proof.Machine

/-! ### The bytes the cursors address (O17) -/

/-- Where a received bit is stored or passed, the cursor is in the header or in a data byte that exists. -/
theorem rxPlace.byte_lt {p : PState} {rx : RxCtx} (h : rxPlace p rx)
    (hp : p ∈ [PState.rxHeaderInitLow, .rxHeaderInitHigh, .rxHeaderDestLow, .rxHeaderDestHigh, .rxDataLow, .rxDataHigh]) :
    rx.bb.byte.toNat < 16 := by
  cases p with
  | rxHeaderInitLow | rxHeaderInitHigh | rxHeaderDestLow | rxHeaderDestHigh =>
    obtain ⟨hbyte, -⟩ := h
    rw [hbyte]; decide
  | rxDataLow | rxDataHigh => obtain ⟨-, hlt, -⟩ := h; exact hlt
  | _ => exact absurd hp (by decide)

/-- Where a bit is about to be sent or passed, the cursor is in the header or in a byte of a frame of at most 16. -/
theorem txPlace.byte_lt {p : PState} {tx : TxCtx} (h : txPlace p tx) (hlen : tx.len.toNat ≤ 16)
    (hp : p ∈ [PState.txStartHigh, .txHeaderInitLow, .txHeaderInitHigh, .txHeaderDestLow, .txHeaderDestHigh, .txDataLow,
      .txDataHigh]) :
    tx.bb.byte.toNat < 16 := by
  cases p with
  | txStartHigh =>
    obtain ⟨-, hbyte⟩ := h
    rw [hbyte]; decide
  | txHeaderInitLow | txHeaderInitHigh | txHeaderDestLow | txHeaderDestHigh =>
    obtain ⟨hbyte, -⟩ := h
    rw [hbyte]; decide
  | txDataLow | txDataHigh => obtain ⟨-, hlt⟩ := h; exact hlt.trans_le hlen
  | _ => exact absurd hp (by decide)

/-- After an acknowledged byte that does not end the frame, the cursor is on a byte of the frame still to be sent. -/
theorem txPlace.byte_lt_len {tx : TxCtx} (h : txPlace .txAckVerify tx) (hmore : tx.bb.isEom tx.len = false) :
    tx.bb.byte.toNat < tx.len.toNat := by
  obtain ⟨hbit, -, hle⟩ := h
  refine lt_of_le_of_ne hle fun heq => ?_
  rw [(isEom_iff _ _).2 ⟨hbit, BitVec.eq_of_toNat_eq heq⟩] at hmore
  cases hmore

/-- Settles O17: the place of each cursor, with TX_LEN at most 16, and R251 for the byte that follows in RxAckFinish. -/
theorem cursorsAddressBytesThatExist : Obligations.CursorsAddressBytesThatExist := by
  intro s h
  obtain ⟨-, -, -, hlen, -⟩ := (registersLegal_iff s).1 h.legal
  refine ⟨h.rxAt.byte_lt, h.txAt.byte_lt hlen, fun hs hmore => ?_, fun hs he => (h.frameGoesOn hs he).2⟩
  have hplace := h.txAt
  rw [hs] at hplace
  exact (hplace.byte_lt_len hmore).trans_le hlen

/-! ### The frame through entries and events -/

/-- The frame of a transmit context, in TX_BUF and TX_LEN, is still there. -/
structure KeepsFrame (tx : TxCtx) (t : State) : Prop where
  buf : t.tx.bb.buf = tx.bb.buf
  len : t.tx.len = tx.len

/-- The frame was completed: TX_LEN is cleared in a step that says so (R303). TX_BUF keeps its bytes. -/
structure EndsFrame (tx : TxCtx) (t : State) : Prop where
  buf : t.tx.bb.buf = tx.bb.buf
  len : t.tx.len = 0
  told : t.out.notify = some .sendOk ∨ t.out.notify = some .sendFailed

/-- The transmit context was not written. -/
theorem KeepsFrame.of_tx {tx : TxCtx} {t : State} (h : t.tx = tx) : KeepsFrame tx t := ⟨by rw [h], by rw [h]⟩

/-- No entry but that of Disabled writes TX_BUF or TX_LEN. -/
theorem KeepsFrame.enter {tx : TxCtx} {s : State} (h : KeepsFrame tx s) {p : PState} (line : Option Level)
    (hp : p ≠ .disabled) : KeepsFrame tx (enter p line s) where
  buf := (enter_bufs p line s hp).2.trans h.buf
  len := (enter_tx_len p line s hp).1.trans h.len

/-- The entry of a transition that wrote nothing of the transmit context. -/
theorem enter_keepsFrame {tx : TxCtx} {s : State} {p : PState} (line : Option Level) (hp : p ≠ .disabled)
    (h : s.tx = tx) : KeepsFrame tx (enter p line s) := (KeepsFrame.of_tx h).enter line hp

theorem raiseAbort_keepsFrame {tx : TxCtx} {s : State} (cause : AbortCause) (h : s.tx = tx) :
    KeepsFrame tx (raiseAbort cause s) := enter_keepsFrame none (by decide) h

theorem receiveBitLow_keepsFrame {next : PState} (t : Tick) (s : State) (hn : next ≠ .disabled) :
    KeepsFrame s.tx (receiveBitLow next t s) := by
  unfold receiveBitLow
  split
  · exact raiseAbort_keepsFrame _ rfl
  · exact enter_keepsFrame none hn rfl

theorem receiveEomLow_keepsFrame (t : Tick) (s : State) : KeepsFrame s.tx (receiveEomLow t s) := by
  unfold receiveEomLow
  split
  · exact raiseAbort_keepsFrame _ rfl
  · exact enter_keepsFrame none (by decide) rfl

theorem receiveBitHigh_keepsFrame {stop : BitVec 3} {last more : PState} (t : Tick) (s : State)
    (hlast : last ≠ .disabled) (hmore : more ≠ .disabled) : KeepsFrame s.tx (receiveBitHigh stop last more t s) := by
  unfold receiveBitHigh
  split
  · refine enter_keepsFrame none ?_ rfl
    split
    · exact hlast
    · exact hmore
  · exact raiseAbort_keepsFrame _ rfl

theorem receiveEomHigh_keepsFrame (t : Tick) (s : State) : KeepsFrame s.tx (receiveEomHigh t s) := by
  unfold receiveEomHigh
  split
  · exact enter_keepsFrame none (by decide) rfl
  · exact raiseAbort_keepsFrame _ rfl

theorem captureRxStartLow_keepsFrame (t : Tick) (s : State) : KeepsFrame s.tx (captureRxStartLow t s) := by
  unfold captureRxStartLow
  split
  · exact enter_keepsFrame none (by decide) rfl
  · exact enter_keepsFrame none (by decide) rfl
  · exact raiseAbort_keepsFrame _ rfl

theorem captureRxStartHigh_keepsFrame (t : Tick) (s : State) : KeepsFrame s.tx (captureRxStartHigh t s) := by
  unfold captureRxStartHigh
  split
  · exact enter_keepsFrame none (by decide) rfl
  · exact raiseAbort_keepsFrame _ rfl

/-- No capture touches the frame, a collision in the free time included (R274). -/
theorem captureIn_keepsFrame (p : PState) (t : Tick) (s : State) : KeepsFrame s.tx (captureIn p t s) := by
  cases p with
  | idle | rxAckFinish => exact enter_keepsFrame none (by decide) rfl
  | txFreeTime =>
    have hfree : KeepsFrame s.tx (s.mapTx resetTxCursor) := ⟨rfl, rfl⟩
    exact hfree.enter (p := .rxStartLow) none (by decide)
  | rxStartLow => exact captureRxStartLow_keepsFrame t s
  | rxStartHigh => exact captureRxStartHigh_keepsFrame t s
  | rxHeaderInitLow | rxHeaderDestLow | rxDataLow => exact receiveBitLow_keepsFrame t s (by decide)
  | rxHeaderInitHigh | rxHeaderDestHigh | rxDataHigh => exact receiveBitHigh_keepsFrame t s (by decide) (by decide)
  | rxEomLow => exact receiveEomLow_keepsFrame t s
  | rxEomHigh => exact receiveEomHigh_keepsFrame t s
  | _ => exact .of_tx rfl

/-- Sending a bit moves the cursor only. -/
theorem transmitBitHigh_keepsFrame {stop : BitVec 3} {last more : PState} (line : Level) (s : State)
    (hlast : last ≠ .disabled) (hmore : more ≠ .disabled) : KeepsFrame s.tx (transmitBitHigh stop last more line s) := by
  have hmoved : KeepsFrame s.tx (s.mapTx fun tx => { tx with bb := tx.bb.incBit }) := ⟨incBit_buf s.tx.bb, rfl⟩
  unfold transmitBitHigh
  refine hmoved.enter (some line) ?_
  split
  · exact hlast
  · exact hmore

theorem finishSend_endsFrame {n : Notif} (line : Level) (s : State) (hn : n = .sendOk ∨ n = .sendFailed) :
    EndsFrame s.tx (finishSend n line s) where
  buf := (enter_bufs .idle (some line) _ (by decide)).2
  len := (enter_tx_len .idle (some line) _ (by decide)).1
  told := by
    rw [finishSend, enter_out_notify _ _ _ (by decide)]
    exact hn.imp (congrArg some) (congrArg some)

/-- The end of an ACK bit goes on with the frame, sends it again, or completes it (R303). -/
theorem timeoutTxAckVerify_frame (line : Level) (s : State) :
    KeepsFrame s.tx (timeoutTxAckVerify line s) ∨ EndsFrame s.tx (timeoutTxAckVerify line s) := by
  unfold timeoutTxAckVerify
  split
  · split
    · exact Or.inr (finishSend_endsFrame line s (Or.inl rfl))
    · exact Or.inl (enter_keepsFrame _ (by decide) rfl)
  · split
    · have hagain : KeepsFrame s.tx (s.mapTx fun tx => { tx with resends := tx.resends + 1 }) := ⟨rfl, rfl⟩
      exact Or.inl (hagain.enter _ (by decide))
    · exact Or.inr (finishSend_endsFrame line s (Or.inr rfl))

theorem timeoutRxAckVerify_keepsFrame (line : Level) (s : State) : KeepsFrame s.tx (timeoutRxAckVerify line s) := by
  unfold timeoutRxAckVerify
  split
  · exact raiseAbort_keepsFrame _ rfl
  · exact enter_keepsFrame _ (by decide) rfl

theorem timeoutRxAckFinish_keepsFrame (line : Level) (s : State) : KeepsFrame s.tx (timeoutRxAckFinish line s) := by
  unfold timeoutRxAckFinish
  split
  · exact enter_keepsFrame _ (by decide) rfl
  · exact raiseAbort_keepsFrame _ rfl

/-- Of the timeouts only that of TxAckVerify can complete the frame. -/
theorem timeoutIn_frame (p : PState) (line : Level) (s : State) :
    KeepsFrame s.tx (timeoutIn p line s) ∨ EndsFrame s.tx (timeoutIn p line s) := by
  cases p with
  | disabled | idle => exact Or.inl (.of_tx rfl)
  | txAckVerify => exact timeoutTxAckVerify_frame line s
  | txHeaderInitHigh | txHeaderDestHigh | txDataHigh =>
    exact Or.inl (transmitBitHigh_keepsFrame line s (by decide) (by decide))
  | txFreeTime | txStartLow | txStartHigh | txHeaderInitLow | txHeaderDestLow | txDataLow | txEomLow | txEomHigh
  | txAckLow | txAckHigh | rxDebounce | rxAckLow => exact Or.inl (enter_keepsFrame _ (by decide) rfl)
  | rxAckVerify => exact Or.inl (timeoutRxAckVerify_keepsFrame line s)
  | rxAckFinish => exact Or.inl (timeoutRxAckFinish_keepsFrame line s)
  | _ => exact Or.inl (raiseAbort_keepsFrame _ rfl)

/-! ### A pending frame (O19) -/

/-- Every input operation but CMD_DISABLE leaves a pending frame alone or completes it: a second submission is answered
BUSY before its bytes are loaded (R323). -/
theorem exec_frame {i : Instr} {s t : State} (hi : i.isInputOp = true) (h : exec i s = .next t) (hlen : s.tx.len ≠ 0)
    (hd : i ≠ .cmdDisable) : KeepsFrame s.tx t ∨ EndsFrame s.tx t := by
  cases i with
  | evCapture e =>
    simp only [exec, execEvCapture] at h
    left
    split at h
    · cases h; exact .of_tx rfl
    · split at h <;> cases h
      · exact .of_tx rfl
      · exact captureIn_keepsFrame s.state e s.beginStep
  | evTimeout l =>
    simp only [exec, execEvTimeout] at h
    split at h <;> cases h
    · exact timeoutIn_frame s.state l s.beginStep
    · exact Or.inl (.of_tx rfl)
  | cmdEnable =>
    cases h
    left
    split
    · exact enter_keepsFrame none (by decide) rfl
    · exact .of_tx rfl
  | cmdDisable => exact absurd rfl hd
  | cmdSetAddr a => cases h; left; split <;> exact .of_tx rfl
  | cmdSubmit n d =>
    cases h
    left
    split
    · exact .of_tx rfl
    · split
      · exact .of_tx rfl
      · exact .of_tx rfl
  | _ => cases hi

/-- Settles O19. -/
theorem pendingFrameIsConstant : Obligations.PendingFrameIsConstant := by
  intro i s t hi _ h hlen hd
  rcases exec_frame hi h hlen hd with hkeep | hend
  · exact ⟨fun k => by rw [hkeep.buf], Or.inl hkeep.len⟩
  · exact ⟨fun k => by rw [hend.buf], Or.inr ⟨hend.len, hend.told⟩⟩

end Sys2Proof.Machine
end

section
/-! SUPPORT. PROOFS. Encoding (30_encoding.md): the fields of a word by number, the words and the selectors of the
tables, the reserved ones, and the step on a refused input. -/

namespace Sys2Proof.Machine

/-! ### The fields of a word, by number -/

/-- The field in the `m` highest bits of a word, above `n` others. -/
theorem top_field_iff {k m n : Nat} (hk : n + m = k) (w : BitVec k) (v : BitVec m) :
    w.extractLsb' n m = v ↔ w.toNat / 2 ^ n = v.toNat := by
  have hlt : w.toNat / 2 ^ n < 2 ^ m := by
    rw [Nat.div_lt_iff_lt_mul (Nat.two_pow_pos n), mul_comm, ← pow_add, hk]
    exact w.isLt
  rw [← BitVec.toNat_inj, BitVec.extractLsb'_toNat, Nat.shiftRight_eq_div_pow, Nat.mod_eq_of_lt hlt]

/-- OP of an EVT32 word (R100). -/
theorem evt32_op_iff (w : BitVec 32) (op : BitVec 4) : w.extractLsb' 28 4 = op ↔ w.toNat / 2 ^ 28 = op.toNat :=
  top_field_iff rfl w op

/-- The reserved field of an EVT32 word lies between its operand of `n` bits and its OP (R102 to R107). -/
theorem evt32_reserved_iff {m n : Nat} (hmn : n + m = 28) (w : BitVec 32) :
    w.extractLsb' n m = 0 ↔ w.toNat % 2 ^ 28 < 2 ^ n := by
  rw [← BitVec.toNat_inj, BitVec.extractLsb'_toNat, Nat.shiftRight_eq_div_pow, ← hmn, pow_add, ← Nat.mod_mul_right_div_self]
  exact Nat.div_eq_zero_iff_lt (Nat.two_pow_pos n)

/-- An EVT32 word is its OP, zeros, and its operand (R100, R102 to R107). -/
theorem evt32_word_iff {m n : Nat} (hmn : n + m = 28) (w : BitVec 32) (op : BitVec 4) (a : BitVec n) :
    w.toNat = 2 ^ 28 * op.toNat + a.toNat ↔
      w.extractLsb' 28 4 = op ∧ w.extractLsb' n m = 0 ∧ w.extractLsb' 0 n = a := by
  have ha : a.toNat < 2 ^ n := a.isLt
  have hle : 2 ^ n ≤ 2 ^ 28 := Nat.pow_le_pow_right (by decide) (hmn ▸ Nat.le_add_right n m)
  have hlow : w.toNat % 2 ^ n = w.toNat % 2 ^ 28 % 2 ^ n :=
    (Nat.mod_mod_of_dvd _ (pow_dvd_pow 2 (hmn ▸ Nat.le_add_right n m))).symm
  rw [evt32_op_iff, evt32_reserved_iff hmn, ← BitVec.toNat_inj (x := w.extractLsb' 0 n), BitVec.extractLsb'_toNat,
    Nat.shiftRight_zero, hlow]
  constructor
  · intro hw
    have hmod : w.toNat % 2 ^ 28 = a.toNat := by omega
    rw [hmod]
    exact ⟨by omega, ha, Nat.mod_eq_of_lt ha⟩
  · rintro ⟨hop, hres, harg⟩
    rw [Nat.mod_eq_of_lt hres] at harg
    omega

/-- An EVT32 word whose operand is one bit (R103, R105). -/
theorem evt32_bit_iff (w : BitVec 32) (op : BitVec 4) (b : Bool) :
    w.toNat = 2 ^ 28 * op.toNat + b.toNat ↔ w.extractLsb' 28 4 = op ∧ w.extractLsb' 1 27 = 0 ∧ w.getLsbD 0 = b := by
  have hbit : w.extractLsb' 0 1 = BitVec.ofBool b ↔ w.getLsbD 0 = b := by
    simp [BitVec.eq_of_getLsbD_eq_iff]
  rw [← hbit, ← evt32_word_iff (m := 27) rfl, BitVec.toNat_ofBool]

/-- The number of the word an encoder writes: OP, zeros, operand. -/
theorem toNat_evt32 {m n : Nat} (op : BitVec 4) (a : BitVec n) :
    (op ++ (0#m ++ a)).toNat = 2 ^ (m + n) * op.toNat + a.toNat := by
  have ha : a.toNat < 2 ^ (m + n) := a.isLt.trans_le (Nat.pow_le_pow_right (by decide) (Nat.le_add_left n m))
  rw [BitVec.toNat_append, BitVec.toNat_append, BitVec.toNat_ofNat, Nat.zero_mod, Nat.zero_shiftLeft, Nat.zero_or,
    Nat.shiftLeft_eq, mul_comm, Nat.two_pow_add_eq_or_of_lt ha]

theorem toNat_evt32_bit (op : BitVec 4) (b : Bool) :
    (op ++ (0#27 ++ BitVec.ofBool b)).toNat = 2 ^ 28 * op.toNat + b.toNat := by
  rw [toNat_evt32, BitVec.toNat_ofBool]

/-- Two words of one number are one word. -/
theorem word_eq_of_number {k n : Nat} {v w : BitVec k} (hw : w.toNat = n) (hv : v.toNat = n) : v = w :=
  BitVec.eq_of_toNat_eq (hv.trans hw.symm)

/-- `op` of a TP5 selector (R114). -/
theorem tp5_op_iff (w : BitVec 5) (op : BitVec 3) : w.extractLsb' 2 3 = op ↔ w.toNat / 4 = op.toNat :=
  top_field_iff rfl w op

/-- `sel` of a TP5 selector (R114). -/
theorem tp5_sel_iff (w : BitVec 5) (sel : BitVec 2) : w.extractLsb' 0 2 = sel ↔ w.toNat % 4 = sel.toNat := by
  rw [← BitVec.toNat_inj, BitVec.extractLsb'_toNat, Nat.shiftRight_zero]

/-- A TP5 selector of code `k` is `{op[4:2], sel[1:0]}` (R114). -/
theorem tp5_word_iff {k : Nat} (hk : k < 8) (w : BitVec 5) (sel : BitVec 2) :
    w.toNat = 4 * k + sel.toNat ↔ w.extractLsb' 2 3 = BitVec.ofNat 3 k ∧ w.extractLsb' 0 2 = sel := by
  have := sel.isLt
  rw [tp5_op_iff, tp5_sel_iff, BitVec.toNat_ofNat, Nat.mod_eq_of_lt hk]
  omega

/-! ### The data port -/

/-- The data port gives 16 bytes whatever the list holds (R100; log entry 13). -/
theorem dataPortOk_dataLines (p : Ports) : dataPortOk (dataLines p) = true := by
  simp [dataPortOk, dataLines]

/-- A list of 16 bytes is read as it stands. -/
theorem dataLines_of_dataPortOk {p : Ports} (h : dataPortOk p.data = true) : dataLines p = p.data := by
  have hlen : p.data.length = 16 := of_decide_eq_true h
  refine List.ext_getElem (by simp [dataLines, hlen]) fun k _ hk => ?_
  simp [dataLines, hk]

/-! ### EVT32 words (R101 to R108, R124) -/

@[simp] theorem decode_evt32 (w : BitVec 32) (p : Ports) : decode ⟨.evt32 w, p⟩ = decodeEvt32 w p := rfl

section InputWords

variable {w : BitVec 32} (p : Ports)

theorem decodeEvt32_evCapture {t : Tick} (h : w.toNat = 0x10000000 + t.toNat) :
    decodeEvt32 w p = .ok (.evCapture t) := by
  obtain ⟨hop, hres, harg⟩ := (evt32_word_iff (m := 4) rfl w 0x1 t).1 h
  simp [decodeEvt32, hop, hres, harg]

theorem decodeEvt32_cmdSetAddr {a : BitVec 8} (h : w.toNat = 0x40000000 + a.toNat) :
    decodeEvt32 w p = .ok (.cmdSetAddr a) := by
  obtain ⟨hop, hres, harg⟩ := (evt32_word_iff (m := 20) rfl w 0x4 a).1 h
  simp [decodeEvt32, hop, hres, harg]

theorem decodeEvt32_cmdSubmit {n : BitVec 5} (h : w.toNat = 0x50000000 + n.toNat) :
    decodeEvt32 w p = .ok (.cmdSubmit n (dataLines p)) := by
  obtain ⟨hop, hres, harg⟩ := (evt32_word_iff (m := 23) rfl w 0x5 n).1 h
  simp [decodeEvt32, hop, hres, harg]

theorem decodeEvt32_evTimeout {l : Level} (h : w.toNat = 0x20000000 + l.toNat) :
    decodeEvt32 w p = .ok (.evTimeout l) := by
  obtain ⟨hop, hres, harg⟩ := (evt32_bit_iff w 0x2 l).1 h
  simpa [decodeEvt32, hop, hres] using harg

theorem decodeEvt32_cmdEnable (h : w.toNat = 0x30000001) : decodeEvt32 w p = .ok .cmdEnable := by
  obtain ⟨hop, hres, harg⟩ := (evt32_bit_iff w 0x3 true).1 h
  simp [decodeEvt32, hop, hres, harg]

theorem decodeEvt32_cmdDisable (h : w.toNat = 0x30000000) : decodeEvt32 w p = .ok .cmdDisable := by
  obtain ⟨hop, hres, harg⟩ := (evt32_bit_iff w 0x3 false).1 h
  simpa [decodeEvt32, hop, hres] using harg

/-- A word is refused for its OP, or for the field its OP reserves (R108). -/
theorem decodeEvt32_refuses_iff (w : BitVec 32) (p : Ports) :
    (∃ e, decodeEvt32 w p = .error e) ↔
      (w.toNat / 2 ^ 28 = 0 ∨ 6 ≤ w.toNat / 2 ^ 28) ∨
      (w.toNat / 2 ^ 28 = 1 ∧ w.toNat % 2 ^ 28 ≥ 2 ^ 24) ∨
      (w.toNat / 2 ^ 28 = 2 ∧ w.toNat % 2 ^ 28 ≥ 2) ∨
      (w.toNat / 2 ^ 28 = 3 ∧ w.toNat % 2 ^ 28 ≥ 2) ∨
      (w.toNat / 2 ^ 28 = 4 ∧ w.toNat % 2 ^ 28 ≥ 2 ^ 8) ∨
      (w.toNat / 2 ^ 28 = 5 ∧ w.toNat % 2 ^ 28 ≥ 2 ^ 5) := by
  simp only [decodeEvt32, evt32_op_iff, evt32_reserved_iff (n := 24) (m := 4) rfl,
    evt32_reserved_iff (n := 1) (m := 27) rfl, evt32_reserved_iff (n := 8) (m := 20) rfl,
    evt32_reserved_iff (n := 5) (m := 23) rfl, BitVec.reduceToNat]
  split_ifs <;> simp only [exists_false, Except.error.injEq, exists_eq', false_iff, true_iff] <;> omega

end InputWords

/-! ### The step on a refused input -/

/-- An input that spells no operation is consumed, leaves the mark, and nothing else of it is seen (R108, R117). -/
theorem step_marks_refused {s : State} {x : Input} {rest : List Input} {e : DecodeError} (hc : cfgWf s.cfg = true)
    (hx : s.inputs = x :: rest) (hd : decode x = .error e) :
    ∃ t, step s = .next t ∧ t.refusedMark.isSome = true ∧ sameRegs s t ∧ quiet t ∧ t.inputs = rest ∧ t.cfg = s.cfg :=
  ⟨_, step_of_refused hc hx hd, by simp [refuseInput], fun _ => rfl, ⟨rfl, rfl, rfl⟩, rfl, rfl⟩

/-! ### Selectors (R113 to R117) -/

/-- The eight codes of three bits, those of a BB3 selector and of `op` in a TP5 selector (R113, R114). -/
theorem bitVec3_cases :
    ∀ op : BitVec 3, op = 0 ∨ op = 1 ∨ op = 2 ∨ op = 3 ∨ op = 4 ∨ op = 5 ∨ op = 6 ∨ op = 7 := by
  decide

theorem symbolOf_symbolCode (sym : Symbol) : symbolOf (symbolCode sym) = some sym := by
  cases sym <;> rfl

theorem symbolOf_eq_some_iff {code : BitVec 2} {sym : Symbol} : symbolOf code = some sym ↔ code = symbolCode sym := by
  refine ⟨fun h => ?_, fun h => h ▸ symbolOf_symbolCode sym⟩
  unfold symbolOf at h
  split_ifs at h with h0 h1 h2 <;> cases h <;> assumption

theorem tierOf_tierCode (tier : Tier) : tierOf (tierCode tier) = some tier := by
  cases tier <;> rfl

theorem tierOf_eq_some_iff {code : BitVec 2} {tier : Tier} : tierOf code = some tier ↔ code = tierCode tier := by
  refine ⟨fun h => ?_, fun h => h ▸ tierOf_tierCode tier⟩
  unfold tierOf at h
  split_ifs at h with h0 h1 h2 <;> cases h <;> assumption

theorem symbolOf_eq_none_iff : ∀ code : BitVec 2, symbolOf code = none ↔ code = 3 := by decide
theorem tierOf_eq_none_iff : ∀ code : BitVec 2, tierOf code = none ↔ code = 3 := by decide

theorem symbolCode_toNat (sym : Symbol) : (symbolCode sym).toNat = symbolNumber sym := by
  cases sym <;> rfl

theorem tierCode_toNat (tier : Tier) : (tierCode tier).toNat = tierNumber tier := by
  cases tier <;> rfl

@[simp] theorem decode_bb3 (op : BitVec 3) (p : Ports) : decode ⟨.bb3 op, p⟩ = .ok (decodeBb3 op p) := rfl

/-- The table of R113. -/
theorem decode_bb3_ok_iff (op : BitVec 3) (p : Ports) (i : Instr) :
    decode ⟨.bb3 op, p⟩ = .ok i ↔
      (op.toNat = 0 ∧ i = .bbReset p.sel) ∨ (op.toNat = 1 ∧ i = .bbClear p.sel) ∨
      (op.toNat = 2 ∧ i = .bbGetBit p.sel) ∨ (op.toNat = 3 ∧ i = .bbSetBit p.sel p.v) ∨
      (op.toNat = 4 ∧ i = .bbIncBit p.sel) ∨ (op.toNat = 5 ∧ i = .bbIsEom p.sel p.len) ∨
      (op.toNat = 6 ∧ i = .bbLoad p.sel p.len (dataLines p)) ∨ (op.toNat = 7 ∧ i = .bbSnapshot p.sel) := by
  rcases bitVec3_cases op with rfl | rfl | rfl | rfl | rfl | rfl | rfl | rfl <;> simp [decodeBb3, eq_comm]

theorem decodeSymbolOp_ok_iff (sel : BitVec 2) (mk : Symbol → Instr) (i : Instr) :
    decodeSymbolOp sel mk = .ok i ↔ ∃ sym, sel = symbolCode sym ∧ i = mk sym := by
  simp only [← symbolOf_eq_some_iff, decodeSymbolOp]
  cases symbolOf sel with
  | none => simp
  | some sym => simp [eq_comm]

theorem decodeSymbolOp_refuses_iff (sel : BitVec 2) (mk : Symbol → Instr) :
    (∃ e, decodeSymbolOp sel mk = .error e) ↔ sel = 3 := by
  rw [← symbolOf_eq_none_iff, decodeSymbolOp]
  cases symbolOf sel <;> simp

/-- The codes of `op` in a TP5 selector (R114): CLASSIFY, which has no `sel`; FREE_TIME, whose `sel` is a tier; and the six
whose `sel` is a symbol. -/
theorem tp5_op_cases :
    ∀ op : BitVec 3, op = 4 ∨ op = 7 ∨ op = 0 ∨ op = 1 ∨ op = 2 ∨ op = 3 ∨ op = 5 ∨ op = 6 := by
  decide

section TimingPolicy

variable {w : BitVec 5} (p : Ports)

theorem decodeTp5_classify_ok_iff (hop : w.extractLsb' 2 3 = 4) (i : Instr) :
    decodeTp5 w p = .ok i ↔ w.extractLsb' 0 2 = 0 ∧ i = .tpClassify p.t := by
  by_cases hsel : w.extractLsb' 0 2 = 0#2
  · simp [decodeTp5, hop, hsel, eq_comm]
  · simp [decodeTp5, hop, hsel]

theorem decodeTp5_classify_refuses_iff (hop : w.extractLsb' 2 3 = 4) :
    (∃ e, decodeTp5 w p = .error e) ↔ w.extractLsb' 0 2 ≠ 0 := by
  by_cases hsel : w.extractLsb' 0 2 = 0#2 <;> simp [decodeTp5, hop, hsel]

theorem decodeTp5_freeTime_ok_iff (hop : w.extractLsb' 2 3 = 7) (i : Instr) :
    decodeTp5 w p = .ok i ↔ ∃ tier, w.extractLsb' 0 2 = tierCode tier ∧ i = .tpFreeTime tier := by
  simp only [← tierOf_eq_some_iff]
  cases htier : tierOf (w.extractLsb' 0 2) <;> simp [decodeTp5, hop, htier, eq_comm]

theorem decodeTp5_freeTime_refuses_iff (hop : w.extractLsb' 2 3 = 7) :
    (∃ e, decodeTp5 w p = .error e) ↔ w.extractLsb' 0 2 = 3 := by
  rw [← tierOf_eq_none_iff]
  cases htier : tierOf (w.extractLsb' 0 2) <;> simp [decodeTp5, hop, htier]

end TimingPolicy

/-- The table of R114, with the symbols of R104 and the tiers of R116. -/
theorem decodeTp5_ok_iff (w : BitVec 5) (p : Ports) (i : Instr) :
    decodeTp5 w p = .ok i ↔
      (∃ sym, w.toNat = 4 * 0 + symbolNumber sym ∧ i = .tpIsValidLow sym p.t) ∨
      (∃ sym, w.toNat = 4 * 1 + symbolNumber sym ∧ i = .tpIsValidTotal sym p.low p.high) ∨
      (∃ sym, w.toNat = 4 * 2 + symbolNumber sym ∧ i = .tpLowDuration sym) ∨
      (∃ sym, w.toNat = 4 * 3 + symbolNumber sym ∧ i = .tpHighDuration sym) ∨
      (w.toNat = 4 * 4 ∧ i = .tpClassify p.t) ∨
      (∃ sym, w.toNat = 4 * 5 + symbolNumber sym ∧ i = .tpCapLow sym) ∨
      (∃ sym, w.toNat = 4 * 6 + symbolNumber sym ∧ i = .tpCapHigh sym) ∨
      (∃ tier, w.toNat = 4 * 7 + tierNumber tier ∧ i = .tpFreeTime tier) := by
  have hclassify : w.toNat = 4 * 4 ↔ w.extractLsb' 2 3 = 4 ∧ w.extractLsb' 0 2 = 0 :=
    tp5_word_iff (k := 4) (by decide) w 0
  rw [hclassify]
  simp only [← symbolCode_toNat, ← tierCode_toNat, tp5_word_iff (k := 0), tp5_word_iff (k := 1), tp5_word_iff (k := 2),
    tp5_word_iff (k := 3), tp5_word_iff (k := 5), tp5_word_iff (k := 6), tp5_word_iff (k := 7), Nat.reduceLT]
  rcases tp5_op_cases (w.extractLsb' 2 3) with h | h | h | h | h | h | h | h
  · rw [decodeTp5_classify_ok_iff p h]; simp [h]
  · rw [decodeTp5_freeTime_ok_iff p h]; simp [h]
  all_goals simp [decodeTp5, h, decodeSymbolOp_ok_iff]

/-- The reserved values of R114 (R117). -/
theorem decodeTp5_refuses_iff (w : BitVec 5) (p : Ports) :
    (∃ e, decodeTp5 w p = .error e) ↔ (w.toNat / 4 = 4 ∧ w.toNat % 4 ≠ 0) ∨ (w.toNat / 4 ≠ 4 ∧ w.toNat % 4 = 3) := by
  have hop : w.toNat / 4 = 4 ↔ w.extractLsb' 2 3 = 4 := (tp5_op_iff w 4).symm
  have hzero : w.toNat % 4 = 0 ↔ w.extractLsb' 0 2 = 0 := (tp5_sel_iff w 0).symm
  have hthree : w.toNat % 4 = 3 ↔ w.extractLsb' 0 2 = 3 := (tp5_sel_iff w 3).symm
  simp only [hop, hzero, hthree, ne_eq]
  rcases tp5_op_cases (w.extractLsb' 2 3) with h | h | h | h | h | h | h | h
  · rw [decodeTp5_classify_refuses_iff p h]; simp [h]
  · rw [decodeTp5_freeTime_refuses_iff p h]; simp [h]
  all_goals simp [decodeTp5, h, decodeSymbolOp_refuses_iff]

/-- The four codes of a DBF2 selector (R115). -/
theorem bitVec2_cases : ∀ op : BitVec 2, op = 0 ∨ op = 1 ∨ op = 2 ∨ op = 3 := by decide

/-- The table of R115. -/
theorem decodeDbf2_ok_iff (op : BitVec 2) (p : Ports) (i : Instr) :
    decodeDbf2 op p = .ok i ↔
      (op.toNat = 0 ∧ i = .dbfClassify p.t) ∨ (op.toNat = 1 ∧ i = .dbfQuiet) ∨ (op.toNat = 2 ∧ i = .dbfReset) := by
  rcases bitVec2_cases op with rfl | rfl | rfl | rfl <;> simp [decodeDbf2, eq_comm]

/-- The reserved value of R115 (R117). -/
theorem decodeDbf2_refuses_iff (op : BitVec 2) (p : Ports) : (∃ e, decodeDbf2 op p = .error e) ↔ op.toNat = 3 := by
  rcases bitVec2_cases op with rfl | rfl | rfl | rfl <;> simp [decodeDbf2]

end Sys2Proof.Machine
end

section
/-! SUPPORT. PROOFS. Encoding (30_encoding.md), the statements: which words and selectors are which operations, which are
refused, and both directions between an operation and its word. -/

namespace Sys2Proof.Machine

/-! ### The tables and the refusals (O3, O4, O5, O6) -/

/-- Settles O3: down the branches of the decoder in one direction, the six rows of the table in the other. -/
theorem inputWordsAreThoseOfTheTable : Obligations.InputWordsAreThoseOfTheTable := by
  intro w p i
  rw [decode_evt32]
  constructor
  · intro h
    simp only [decodeEvt32] at h
    split_ifs at h with h1 hr h2 hr h3 hr hb h4 hr h5 hr <;> cases h
    · exact .inl ⟨_, (evt32_word_iff rfl w 0x1 _).2 ⟨h1, hr, rfl⟩, rfl⟩
    · exact .inr <| .inl ⟨_, (evt32_bit_iff w 0x2 _).2 ⟨h2, hr, rfl⟩, rfl⟩
    · exact .inr <| .inr <| .inl ⟨(evt32_bit_iff w 0x3 true).2 ⟨h3, hr, hb⟩, rfl⟩
    · exact .inr <| .inr <| .inr <| .inl ⟨(evt32_bit_iff w 0x3 false).2 ⟨h3, hr, Bool.eq_false_iff.2 hb⟩, rfl⟩
    · exact .inr <| .inr <| .inr <| .inr <| .inl ⟨_, (evt32_word_iff rfl w 0x4 _).2 ⟨h4, hr, rfl⟩, rfl⟩
    · exact .inr <| .inr <| .inr <| .inr <| .inr ⟨_, (evt32_word_iff rfl w 0x5 _).2 ⟨h5, hr, rfl⟩, rfl⟩
  · rintro (⟨t, hw, rfl⟩ | ⟨l, hw, rfl⟩ | ⟨hw, rfl⟩ | ⟨hw, rfl⟩ | ⟨a, hw, rfl⟩ | ⟨n, hw, rfl⟩)
    · exact decodeEvt32_evCapture p hw
    · exact decodeEvt32_evTimeout p hw
    · exact decodeEvt32_cmdEnable p hw
    · exact decodeEvt32_cmdDisable p hw
    · exact decodeEvt32_cmdSetAddr p hw
    · exact decodeEvt32_cmdSubmit p hw

/-- Settles O4: which words are refused, and the step on a refused input. -/
theorem reservedWordsAreRefused : Obligations.ReservedWordsAreRefused :=
  fun w p => ⟨decodeEvt32_refuses_iff w p, fun _ _ _ => step_marks_refused⟩

/-- Settles O5: the three tables, the reserved values of each, and the step on any refused input. -/
theorem reservedSelectorsAreRefused : Obligations.ReservedSelectorsAreRefused :=
  ⟨decode_bb3_ok_iff, decodeTp5_ok_iff, decodeDbf2_ok_iff, fun op p => ⟨decodeBb3 op p, rfl⟩, decodeTp5_refuses_iff,
    decodeDbf2_refuses_iff, fun _ _ _ _ => step_marks_refused⟩

/-- Settles O6: only a refused input and a late capture touch the mark, and the first mark stays. -/
theorem refusedMarkIsKept : Obligations.RefusedMarkIsKept := by
  intro s t m h hm
  obtain ⟨-, ⟨-, rfl⟩ | ⟨x, rest, i, -, -, hexec⟩ | ⟨x, rest, e, -, -, rfl⟩⟩ := step_cases h
  · exact hm
  · rcases exec_refusedMark hexec with hkept | ⟨hor, -⟩
    · exact hkept.trans hm
    · rw [hor, hm, Option.some_or]
  · simp [refuseInput, hm]

/-! ### From an input to its operation and back (O2) -/

theorem encode_of_decodeEvt32 {w : BitVec 32} {p : Ports} {i : Instr} (h : decodeEvt32 w p = .ok i) :
    WellFormed i = true ∧ (encode i).word = .evt32 w := by
  rcases (inputWordsAreThoseOfTheTable w p i).1 h with ⟨t, hw, rfl⟩ | ⟨l, hw, rfl⟩ | ⟨hw, rfl⟩ | ⟨hw, rfl⟩ |
    ⟨a, hw, rfl⟩ | ⟨n, hw, rfl⟩
  · exact ⟨rfl, congrArg OpWord.evt32 <| word_eq_of_number hw (toNat_evt32 (m := 4) 0x1 t)⟩
  · exact ⟨rfl, congrArg OpWord.evt32 <| word_eq_of_number hw (toNat_evt32_bit 0x2 l)⟩
  · exact ⟨rfl, congrArg OpWord.evt32 <| word_eq_of_number hw rfl⟩
  · exact ⟨rfl, congrArg OpWord.evt32 <| word_eq_of_number hw rfl⟩
  · exact ⟨rfl, congrArg OpWord.evt32 <| word_eq_of_number hw (toNat_evt32 (m := 20) 0x4 a)⟩
  · exact ⟨dataPortOk_dataLines p, congrArg OpWord.evt32 <| word_eq_of_number hw (toNat_evt32 (m := 23) 0x5 n)⟩

theorem encode_decodeBb3 (op : BitVec 3) (p : Ports) :
    WellFormed (decodeBb3 op p) = true ∧ (encode (decodeBb3 op p)).word = .bb3 op := by
  rcases bitVec3_cases op with rfl | rfl | rfl | rfl | rfl | rfl | rfl | rfl
  case inr.inr.inr.inr.inr.inr.inl => exact ⟨dataPortOk_dataLines p, rfl⟩
  all_goals exact ⟨rfl, rfl⟩

theorem encode_of_decodeTp5 {w : BitVec 5} {p : Ports} {i : Instr} (h : decodeTp5 w p = .ok i) :
    WellFormed i = true ∧ (encode i).word = .tp5 w := by
  rcases (decodeTp5_ok_iff w p i).1 h with ⟨sym, hw, rfl⟩ | ⟨sym, hw, rfl⟩ | ⟨sym, hw, rfl⟩ | ⟨sym, hw, rfl⟩ | ⟨hw, rfl⟩ |
    ⟨sym, hw, rfl⟩ | ⟨sym, hw, rfl⟩ | ⟨tier, hw, rfl⟩
  case inr.inr.inr.inr.inl => exact ⟨rfl, congrArg OpWord.tp5 <| word_eq_of_number hw rfl⟩
  case inr.inr.inr.inr.inr.inr.inr => exact ⟨rfl, congrArg OpWord.tp5 <| word_eq_of_number hw (by cases tier <;> rfl)⟩
  all_goals exact ⟨rfl, congrArg OpWord.tp5 <| word_eq_of_number hw (by cases sym <;> rfl)⟩

theorem encode_of_decodeDbf2 {op : BitVec 2} {p : Ports} {i : Instr} (h : decodeDbf2 op p = .ok i) :
    WellFormed i = true ∧ (encode i).word = .dbf2 op := by
  rcases bitVec2_cases op with rfl | rfl | rfl | rfl <;> cases h <;> exact ⟨rfl, rfl⟩

/-- Settles O2: by the format of the word. -/
theorem encodeOfDecodeIsSameWord : Obligations.EncodeOfDecodeIsSameWord := by
  rintro ⟨word, p⟩ i h
  cases word with
  | evt32 w => exact encode_of_decodeEvt32 h
  | bb3 op => cases h; exact encode_decodeBb3 op p
  | tp5 w => exact encode_of_decodeTp5 h
  | dbf2 op => exact encode_of_decodeDbf2 h

/-! ### From an operation to its input and back (O1) -/

/-- Settles O1: an input operation by the number of its word, a selector by its code. -/
theorem decodeOfEncodeIsIdentity : Obligations.DecodeOfEncodeIsIdentity := by
  intro i hwf
  cases i with
  | evCapture t => exact decodeEvt32_evCapture zeroPorts (toNat_evt32 (m := 4) 0x1 t)
  | evTimeout l => exact decodeEvt32_evTimeout zeroPorts (toNat_evt32_bit 0x2 l)
  | cmdEnable => exact decodeEvt32_cmdEnable (w := 0x30000001) zeroPorts rfl
  | cmdDisable => exact decodeEvt32_cmdDisable (w := 0x30000000) zeroPorts rfl
  | cmdSetAddr a => exact decodeEvt32_cmdSetAddr zeroPorts (toNat_evt32 (m := 20) 0x4 a)
  | cmdSubmit n data =>
    have hdata : dataLines { zeroPorts with data := data } = data := dataLines_of_dataPortOk hwf
    exact (decodeEvt32_cmdSubmit _ (toNat_evt32 (m := 23) 0x5 n)).trans
      (congrArg (fun d => Except.ok (Instr.cmdSubmit n d)) hdata)
  | bbLoad b n data =>
    have hdata : dataLines { zeroPorts with sel := b, len := n, data := data } = data := dataLines_of_dataPortOk hwf
    exact congrArg (fun d => Except.ok (Instr.bbLoad b n d)) hdata
  | bbReset | bbClear | bbGetBit | bbSetBit | bbIncBit | bbIsEom | bbSnapshot => rfl
  | tpIsValidLow sym | tpIsValidTotal sym | tpLowDuration sym | tpHighDuration sym | tpCapLow sym | tpCapHigh sym =>
    cases sym <;> rfl
  | tpFreeTime tier => cases tier <;> rfl
  | tpClassify | dbfClassify | dbfQuiet | dbfReset => rfl

/-! ### Words written out (O8) -/

/-- Settles O8: four rows of the tables, and two selectors the decoder reads as they stand. -/
theorem wordsWrittenOutDecode : Obligations.WordsWrittenOutDecode := by
  refine ⟨?_, ?_, ?_, rfl, ?_, rfl⟩
  · exact decodeEvt32_evCapture (w := 0x10000E74) (t := 3700) zeroPorts rfl
  · exact decodeEvt32_evTimeout (w := 0x20000001) (l := released) zeroPorts rfl
  · exact decodeEvt32_cmdSetAddr (w := 0x400000FF) (a := 255) zeroPorts rfl
  · exact (decodeTp5_freeTime_ok_iff (w := 0b11110) zeroPorts rfl _).2 ⟨.present, rfl, rfl⟩

end Sys2Proof.Machine
end

section
/-! SUPPORT. PROOFS. Bit Transfer Buffer (40_bit_buffer.md): what an operation on one buffer leaves unchanged, the bits
of a buffer in the order they are sent, and the statements about the selectors and about moving a frame bit by bit. -/

namespace Sys2Proof.Machine

/-! ### The registers of one buffer -/

/-- A register is a byte or the cursor of the buffer named, or no operation on that buffer writes it. -/
theorem readReg_withBuffer_cases (s : State) (b : BufSel) (v : BitBuffer) (r : Reg) :
    r ∈ bufRegs b ∨ r ∈ cursorRegs b ∨ (s.withBuffer b v).readReg r = s.readReg r := by
  cases b <;> cases r
  case rx.rxBuf k | tx.txBuf k => exact .inl (List.mem_map_of_mem (List.mem_finRange k))
  case rx.rxBit | rx.rxByte | tx.txBit | tx.txByte => exact .inr <| .inl <| by decide
  all_goals exact .inr <| .inr rfl

theorem readReg_withBuffer_of_bytes {s : State} {b : BufSel} {v : BitBuffer}
    (h : ∀ k, memRead v.buf k = memRead (s.buffer b).buf k) {r : Reg} (hr : r ∈ bufRegs b) :
    (s.withBuffer b v).readReg r = s.readReg r := by
  cases b <;> obtain ⟨k, -, rfl⟩ := List.mem_map.1 hr <;> exact congrArg BitVec.toNat (h k)

theorem readReg_withBuffer_of_cursor {s : State} {b : BufSel} {v : BitBuffer} (hbit : v.bit = (s.buffer b).bit)
    (hbyte : v.byte = (s.buffer b).byte) {r : Reg} (hr : r ∈ cursorRegs b) :
    (s.withBuffer b v).readReg r = s.readReg r := by
  cases b <;> rcases List.mem_pair.1 hr with rfl | rfl
  case rx.inl | tx.inl => exact congrArg BitVec.toNat hbit
  case rx.inr | tx.inr => exact congrArg BitVec.toNat hbyte

/-- The frame of an operation on one buffer: its bytes and its cursor are each either named as written or kept. -/
theorem sameRegsBut_withBuffer {written : List Reg} {s : State} {b : BufSel} {v : BitBuffer}
    (hbytes : bufRegs b ⊆ written ∨ ∀ k, memRead v.buf k = memRead (s.buffer b).buf k)
    (hcursor : cursorRegs b ⊆ written ∨ (v.bit = (s.buffer b).bit ∧ v.byte = (s.buffer b).byte)) :
    sameRegsBut written s (s.withBuffer b v) := by
  intro r hr
  rcases readReg_withBuffer_cases s b v r with hbuf | hcur | hkept
  · rcases hbytes with hsub | hsame
    · exact absurd (hsub hbuf) hr
    · exact readReg_withBuffer_of_bytes hsame hbuf
  · rcases hcursor with hsub | ⟨hbit, hbyte⟩
    · exact absurd (hsub hcur) hr
    · exact readReg_withBuffer_of_cursor hbit hbyte hcur
  · exact hkept

theorem sameRegs_beginStep (s : State) : sameRegs s s.beginStep := by
  intro r
  cases r <;> rfl

/-- Putting back what the buffer holds changes no register. -/
theorem sameRegs_withBuffer_self (s : State) (b : BufSel) : sameRegs s (s.beginStep.withBuffer b (s.buffer b)) := by
  cases b <;> exact sameRegs_beginStep s

theorem sameRegsBut.of_beginStep {written : List Reg} {s u : State} (h : sameRegsBut written s.beginStep u) :
    sameRegsBut written s u :=
  fun r hr => (h r hr).trans (sameRegs_beginStep s r)

theorem sameRun_withBuffer (s : State) (b : BufSel) (v : BitBuffer) : sameRun s (s.beginStep.withBuffer b v) := by
  simp [sameRun]

theorem quiet_withBuffer (s : State) (b : BufSel) (v : BitBuffer) : quiet (s.beginStep.withBuffer b v) := by
  simp [quiet]

theorem sameRegs_giveResult (r : SelResult) (s : State) : sameRegs s (s.beginStep.giveResult r) :=
  sameRegs_beginStep s

theorem sameRun_giveResult (r : SelResult) (s : State) : sameRun s (s.beginStep.giveResult r) := by
  simp [sameRun]

theorem buffersWf.buffer {s : State} (h : buffersWf s) (b : BufSel) : Memory.wf (s.buffer b).buf = true := by
  cases b with
  | rx => exact h.1
  | tx => exact h.2

/-! ### One bit of a byte by its number -/

theorem getLsbD_eq_wireBit (b : Byte) {j : Nat} (hj : j < 8) : b.getLsbD j = wireBit b (BitVec.ofNat 3 (7 - j)) := by
  rw [wireBit, BitVec.toNat_ofNat, show 7 - (7 - j) % 2 ^ 3 = j by omega]

/-- SET_BIT at cursor bit index `i` writes bit `7 - i` and no other (R144). -/
theorem getLsbD_withWireBit (b : Byte) (i : BitVec 3) (v : Bool) {j : Nat} (hj : j < 8) :
    (withWireBit b i v).getLsbD j = if j = 7 - i.toNat then v else b.getLsbD j := by
  rw [getLsbD_eq_wireBit _ hj, getLsbD_eq_wireBit b hj]
  have hindex : BitVec.ofNat 3 (7 - j) = i ↔ j = 7 - i.toNat := by
    rw [← BitVec.toNat_inj, BitVec.toNat_ofNat]
    omega
  split
  next hat => rw [hindex.2 hat, wireBit_withWireBit_same]
  next hoff => exact wireBit_withWireBit_other b v (mt hindex.1 hoff)

/-! ### The bits of a buffer in the order they are sent (R71, R72) -/

/-- The position of the cursor among the bits of the buffer; the one-past-end position is 128. -/
def BitBuffer.pos (b : BitBuffer) : Nat := 8 * b.byte.toNat + b.bit.toNat

/-- The bit of a frame buffer at a position: byte 0 first, the most significant bit of a byte first. -/
def bitAt (m : Memory) (p : Nat) : Bool := (memRead m (p / 8)).getLsbD (7 - p % 8)

theorem BitBuffer.pos_div (b : BitBuffer) : b.pos / 8 = b.byte.toNat := by
  simp only [BitBuffer.pos]
  omega

theorem BitBuffer.pos_mod (b : BitBuffer) : b.pos % 8 = b.bit.toNat := by
  simp only [BitBuffer.pos]
  omega

theorem BitBuffer.byte_lt_of_pos {b : BitBuffer} (h : b.pos < 128) : b.byte.toNat < 16 := by
  rw [← b.pos_div]
  omega

/-- A cursor at the start of a byte. -/
theorem BitBuffer.cursor_of_pos {b : BitBuffer} {n : Nat} (h : b.pos = 8 * n) : b.bit = 0 ∧ b.byte.toNat = n := by
  refine ⟨BitVec.eq_of_toNat_eq ?_, ?_⟩
  · rw [← b.pos_mod, h, Nat.mul_mod_right]
    rfl
  · rw [← b.pos_div, h, Nat.mul_div_cancel_left n (by decide)]

@[simp] theorem setBit_pos (v : Bool) (b : BitBuffer) : (b.setBit v).pos = b.pos := by
  simp only [BitBuffer.pos, setBit_bit, setBit_byte]

/-- INC_BIT goes to the next bit, within a byte or into the next one. -/
theorem incBit_pos {b : BitBuffer} (h : b.pos < 128) : b.incBit.pos = b.pos + 1 := by
  have hbyte := BitBuffer.byte_lt_of_pos h
  simp only [BitBuffer.pos]
  by_cases h7 : b.bit.toNat < 7
  · obtain ⟨hbit, hkeep⟩ := incBit_of_lt hbyte h7
    rw [hbit, hkeep]
    omega
  · obtain ⟨hbit, hnext⟩ := incBit_of_eq hbyte (by omega)
    have hzero : (0 : BitVec 3).toNat = 0 := rfl
    rw [hbit, hnext, hzero]
    omega

/-- A bit written, the cursor goes to the next one. -/
theorem setBit_incBit_pos (v : Bool) {b : BitBuffer} (h : b.pos < 128) : (b.setBit v).incBit.pos = b.pos + 1 := by
  rw [incBit_pos (by rwa [setBit_pos]), setBit_pos]

/-- GET_BIT reads the bit at the cursor's position. -/
theorem getBit_eq_bitAt {b : BitBuffer} (h : b.pos < 128) : b.getBit = bitAt b.buf b.pos := by
  rw [getBit_of_lt (BitBuffer.byte_lt_of_pos h), bitAt, b.pos_div, b.pos_mod, wireBit]

/-- SET_BIT writes the bit at the cursor's position and no other. -/
theorem bitAt_setBit {b : BitBuffer} (v : Bool) (hw : Memory.wf b.buf = true) (h : b.pos < 128) (p : Nat) :
    bitAt (b.setBit v).buf p = if p = b.pos then v else bitAt b.buf p := by
  have hiff : p = b.pos ↔ p / 8 = b.byte.toNat ∧ 7 - p % 8 = 7 - b.bit.toNat := by
    simp only [BitBuffer.pos]
    omega
  by_cases hbyte : p / 8 = b.byte.toNat
  · simp only [bitAt, hiff, hbyte, true_and]
    rw [memRead_setBit_same v hw (BitBuffer.byte_lt_of_pos h), getLsbD_withWireBit _ _ _ (by omega)]
  · rw [if_neg fun hp => hbyte (hiff.1 hp).1, bitAt, memRead_setBit_other v hbyte, bitAt]

/-- A byte is its eight bits in a row. -/
theorem memRead_eq_of_bitAt {m m' : Memory} {k : Nat} (h : ∀ p, p / 8 = k → bitAt m p = bitAt m' p) :
    memRead m k = memRead m' k := by
  apply BitVec.eq_of_getLsbD_eq
  intro j hj
  have hdiv : (8 * k + (7 - j)) / 8 = k := by omega
  have hmod : 7 - (8 * k + (7 - j)) % 8 = j := by omega
  have hbit := h _ hdiv
  rwa [bitAt, bitAt, hdiv, hmod] at hbit

/-! ### Moving bits from one buffer to the other (R150) -/

theorem moveBits_source (n : Nat) (rx tx : BitBuffer) : (moveBits n rx tx).2.buf = tx.buf := by
  induction n generalizing rx tx with
  | zero => rfl
  | succ n ih => rw [moveBits, ih, incBit_buf]

section Moving
variable {n : Nat} {rx tx : BitBuffer}

/-- Both cursors advance by one for each bit moved. -/
theorem moveBits_pos (heq : rx.pos = tx.pos) (hend : tx.pos + n ≤ 128) :
    (moveBits n rx tx).1.pos = tx.pos + n ∧ (moveBits n rx tx).2.pos = tx.pos + n := by
  induction n generalizing rx tx with
  | zero => exact ⟨heq, rfl⟩
  | succ n ih =>
    have htx : tx.incBit.pos = tx.pos + 1 := incBit_pos (by omega)
    have hnext : (rx.setBit tx.getBit).incBit.pos = tx.incBit.pos := by
      rw [setBit_incBit_pos _ (by omega), heq, htx]
    have hrest := ih hnext (by omega)
    rwa [htx, Nat.add_assoc, Nat.add_comm 1] at hrest

/-- The bits the cursors passed are those of the source, every other bit is the one that stood there. -/
theorem bitAt_moveBits (hw : Memory.wf rx.buf = true) (heq : rx.pos = tx.pos) (hend : tx.pos + n ≤ 128) (p : Nat) :
    bitAt (moveBits n rx tx).1.buf p =
      if tx.pos ≤ p ∧ p < tx.pos + n then bitAt tx.buf p else bitAt rx.buf p := by
  induction n generalizing rx tx with
  | zero => rw [moveBits, if_neg (by omega)]
  | succ n ih =>
    have hrx : rx.pos < 128 := by omega
    have htx : tx.incBit.pos = tx.pos + 1 := incBit_pos (by omega)
    have hnext : (rx.setBit tx.getBit).incBit.pos = tx.incBit.pos := by
      rw [setBit_incBit_pos _ hrx, heq, htx]
    have hwrite : bitAt (rx.setBit tx.getBit).incBit.buf p =
        if p = tx.pos then bitAt tx.buf p else bitAt rx.buf p := by
      rw [incBit_buf, bitAt_setBit _ hw hrx, heq, getBit_eq_bitAt (by omega)]
      split
      next hp => rw [hp]
      next => rfl
    have hrest := ih (by rw [incBit_buf]; exact setBit_wf _ hw) hnext (by omega)
    rw [moveBits, hrest, hwrite, incBit_buf, htx]
    by_cases hp : p = tx.pos
    · rw [if_neg (by omega), if_pos hp, if_pos (by omega)]
    · rw [if_neg hp]
      exact if_congr (by omega) rfl rfl

/-- From both starts, the bytes moved are those of the source. -/
theorem memRead_moveBits (hw : Memory.wf rx.buf = true) (hrx : rx.pos = 0) (htx : tx.pos = 0) (hn : n ≤ 16) {k : Nat}
    (hk : k < n) : memRead (moveBits (8 * n) rx tx).1.buf k = memRead tx.buf k := by
  refine memRead_eq_of_bitAt fun p hp => ?_
  rw [bitAt_moveBits hw (hrx.trans htx.symm) (by omega), htx, if_pos (by omega)]

end Moving

/-- Settles O46: the bytes moved are those of the source, which are those loaded; the cursors stand `8 * n` bits on. -/
theorem movedBitsGiveTheSameBytes : Obligations.MovedBitsGiveTheSameBytes := by
  intro rx tx n d hrx htx _ hn
  have hsame := fun k (hk : k < n) => memRead_moveBits (tx := tx.reset.load n d) (rx := rx.reset) hrx rfl rfl hn hk
  have hload : ∀ k < n, memRead (tx.reset.load n d).buf k = d.getD k 0 := by
    intro k hk
    rw [memRead_load (b := tx.reset) d hn htx, if_pos hk]
  obtain ⟨hposRx, hposTx⟩ :=
    moveBits_pos (n := 8 * n) (rx := rx.reset) (tx := tx.reset.load n d) rfl (show 0 + 8 * n ≤ 128 by omega)
  obtain ⟨hbitRx, hbyteRx⟩ := BitBuffer.cursor_of_pos (hposRx.trans (Nat.zero_add _))
  obtain ⟨hbitTx, hbyteTx⟩ := BitBuffer.cursor_of_pos (hposTx.trans (Nat.zero_add _))
  refine ⟨fun k hk => ⟨(hsame k hk).trans (hload k hk), ?_⟩, hbitRx, hbyteRx, hbitTx, hbyteTx⟩
  rw [moveBits_source, hsame k hk]

/-! ### The selectors, one by one -/

/-- Settles O42: inside the buffer by the bit and the byte written, at the one-past-end position because SET_BIT leaves
the buffer as it is. -/
theorem setBitWritesOneBit : Obligations.SetBitWritesOneBit := by
  intro s b v hs
  refine ⟨_, rfl, sameRun_withBuffer .., quiet_withBuffer .., fun hend => ?_, fun hin => ⟨?_, ?_, ?_⟩⟩
  · rw [setBit_of_ge v hend]
    exact sameRegs_withBuffer_self s b
  · intro j hj
    rw [buffer_withBuffer, memRead_setBit_same v (hs.buffer b) hin, getLsbD_withWireBit _ _ _ hj]
  · intro k hk
    rw [buffer_withBuffer, memRead_setBit_other v hk]
  · exact (sameRegsBut_withBuffer (.inl (List.Subset.refl _)) (.inr ⟨by simp, by simp⟩)).of_beginStep

/-- Settles O40: RESET keeps the bytes, CLEAR leaves the buffer at its reset value. -/
theorem bufferResetAndClear : Obligations.BufferResetAndClear := by
  intro s b hs
  constructor
  · refine ⟨_, rfl, by simp, by simp, by simp, ?_, sameRun_withBuffer .., quiet_withBuffer ..⟩
    exact (sameRegsBut_withBuffer (.inr fun k => by simp) (.inl (List.Subset.refl _))).of_beginStep
  · have hclear := clear_eq_reset (hs.buffer b)
    refine ⟨_, rfl, ?_, ?_, ?_, ?_, sameRun_withBuffer .., quiet_withBuffer ..⟩
    · rw [buffer_withBuffer, hclear, resetBuffer]
    · rw [buffer_withBuffer, hclear, resetBuffer]
    · intro k
      rw [buffer_withBuffer, hclear]
      rfl
    · exact sameRegsBut.of_beginStep <|
        sameRegsBut_withBuffer (.inl (List.subset_append_left ..)) (.inl (List.subset_append_right ..))

/-- Settles O41: by the two sides of the one-past-end position. -/
theorem getBitReadsAtTheCursor : Obligations.GetBitReadsAtTheCursor := by
  intro s b
  refine ⟨_, _, rfl, rfl, rfl, rfl, sameRegs_giveResult _ s, sameRun_giveResult _ s, fun hend => ?_, fun hin => ?_⟩
  · rw [BitBuffer.getBit, if_pos hend]
  · rw [getBit_of_lt hin, wireBit]

/-- Settles O43: the three cases of the cursor; no byte is written in any of them. -/
theorem incBitAdvancesTheCursor : Obligations.IncBitAdvancesTheCursor := by
  intro s b
  refine ⟨_, rfl, sameRun_withBuffer .., quiet_withBuffer .., ?_, ?_⟩
  · exact (sameRegsBut_withBuffer (.inr fun k => by simp) (.inl (List.Subset.refl _))).of_beginStep
  · rw [buffer_withBuffer]
    exact ⟨incBit_of_ge, incBit_of_lt, incBit_of_eq⟩

/-- Settles O44: both give a result and write nothing else. -/
theorem isEomAndSnapshotOnlyRead : Obligations.IsEomAndSnapshotOnlyRead := by
  intro s b
  refine ⟨fun len => ?_, ?_⟩
  · refine ⟨_, _, rfl, rfl, ?_, rfl, rfl, sameRegs_giveResult _ s, sameRun_giveResult _ s⟩
    rw [isEom_iff, ← BitVec.toNat_inj, ← BitVec.toNat_inj]
    rfl
  · exact ⟨_, _, rfl, rfl, by simp [BitBuffer.snapshot, BitBuffer.snapshotBytes],
      fun k => snapshotBytes_getD (s.buffer b), rfl, rfl, sameRegs_giveResult _ s, sameRun_giveResult _ s⟩

/-- Settles O45: a LOAD of `len` bytes of the data, or of sixteen bytes of the free value. -/
theorem loadWritesTheFirstBytes : Obligations.LoadWritesTheFirstBytes := by
  intro s b len d hs
  have hframe : ∀ n data, sameRegsBut (bufRegs b) s (s.beginStep.withBuffer b ((s.buffer b).load n data)) :=
    fun n data => (sameRegsBut_withBuffer (.inl (List.Subset.refl _)) (.inr ⟨by simp, by simp⟩)).of_beginStep
  refine ⟨fun hle => ?_, fun hgt => ?_⟩
  · refine ⟨_, execBbLoad_of_le b d s hle, fun k => ?_, by simp, by simp, hframe _ _, sameRun_withBuffer ..,
      quiet_withBuffer ..⟩
    rw [buffer_withBuffer, memRead_load d hle (hs.buffer b)]
  · have hload := memRead_load (freeBytes s.freeDraws) (le_refl maxLen) (hs.buffer b)
    refine ⟨_, execBbLoad_of_gt b d s hgt, fun k hk => ?_, fun k hk => ?_, by simp, by simp, fun r hr => ?_, by simp,
      by simp, by simp, by simp, ?_⟩
    · rw [drawFree_buffer, buffer_withBuffer, hload, if_pos hk, freeBytes_getD _ hk]
    · rw [drawFree_buffer, buffer_withBuffer, hload, if_neg (Nat.not_lt.2 hk)]
    · rw [drawFree_readReg, hframe _ _ r hr]
    · simp [quiet]

end Sys2Proof.Machine
end

section
/-! SUPPORT. PROOFS. Timing Policy (41_timing_policy.md): the selectors read in µs, the disjoint data windows, and the
fallback timeouts against the windows. -/

namespace Sys2Proof.Machine

/-! ### The symbol table (R170) in µs -/

theorem symbolTable_eq_symbolRow (c : Cfg) (sym : Symbol) :
    lowNom c sym = ticksOf c (symbolRow c sym).1 ∧ highNom c sym = ticksOf c (symbolRow c sym).2.1 ∧
      minLow c sym = ticksOf c (symbolRow c sym).2.2.1 ∧ maxLow c sym = ticksOf c (symbolRow c sym).2.2.2.1 ∧
      minTotal c sym = ticksOf c (symbolRow c sym).2.2.2.2.1 ∧
      maxTotal c sym = ticksOf c (symbolRow c sym).2.2.2.2.2 := by
  cases sym <;> exact ⟨rfl, rfl, rfl, rfl, rfl, rfl⟩

theorem tickInt_eq_ticksOf_iff (c : Cfg) (us : Nat) (t : Tick) :
    tickInt t = ticksOf c us ↔ t.toNat = us * c.ticksPerUs := by
  rw [tickInt, ticksOf]
  norm_cast

/-- A lower bound widened by TOL, without the subtraction. -/
theorem ticksOf_sub_tol_le_iff (c : Cfg) (us n : Nat) :
    ticksOf c us - tol c ≤ (n : Int) ↔ us * c.ticksPerUs ≤ n + 100 * c.ticksPerUs := by
  rw [sub_le_iff_le_add, tol, ticksOf, ticksOf]
  norm_cast

/-- An upper bound widened by TOL. -/
theorem le_ticksOf_add_tol_iff (c : Cfg) (us n : Nat) :
    (n : Int) ≤ ticksOf c us + tol c ↔ n ≤ us * c.ticksPerUs + 100 * c.ticksPerUs := by
  rw [tol, ticksOf, ticksOf]
  norm_cast

theorem ticksOf_max (c : Cfg) (a b : Nat) : ticksOf c (max a b) = max (ticksOf c a) (ticksOf c b) := by
  rw [ticksOf, Nat.cast_max, max_mul_of_nonneg _ _ (Int.natCast_nonneg _), ticksOf, ticksOf]

theorem tol_nonneg (c : Cfg) : 0 ≤ tol c := ticksOf_nonneg c tolUs

theorem highNom_nonneg (c : Cfg) (sym : Symbol) : 0 ≤ highNom c sym := by
  obtain ⟨-, hhigh, -⟩ := symbolTable_eq_symbolRow c sym
  exact hhigh ▸ ticksOf_nonneg c _

/-- IS_VALID_LOW answers 0 exactly outside the widened window (R171). -/
theorem isValidLow_eq_false_iff (c : Cfg) (sym : Symbol) (t : Tick) :
    isValidLow c sym t = false ↔ tickInt t < minLow c sym - tol c ∨ maxLow c sym + tol c < tickInt t := by
  rw [← Bool.not_eq_true, isValidLow_iff]
  omega

/-! ### The tick fields hold their durations (R11 (a), R173, R174, R176 to R178) -/

/-- The multiple of the bit period each tier waits (R8). -/
def freeTimeMul : Tier → Nat
  | .resend => ftRsMul
  | .new => ftNiMul
  | .present => ftPiMul

theorem freeTimeInt_eq (c : Cfg) (tier : Tier) : freeTimeInt c tier = ticksOf c (freeTimeMul tier * bitNomUs) := by
  rw [ticksOf, Nat.cast_mul, mul_assoc]
  cases tier <;> rfl

theorem freeTimeMul_selectTier (resends : BitVec 3) (present : Bool) :
    freeTimeMul (selectTier resends present) = if 0 < resends.toNat then 2 else if present = true then 6 else 4 := by
  unfold selectTier
  split
  · rfl
  · split <;> rfl

/-- The widest high a symbol's windows allow is not negative: its nominal high is one of them (R11 (f)). -/
theorem widestHigh_nonneg {c : Cfg} (h : cfgWf c = true) (sym : Symbol) :
    0 ≤ maxTotal c sym + tol c - (minLow c sym - tol c) := by
  obtain ⟨hlow, -, -, htotal⟩ := cfgWf_nominal h sym
  have htol := tol_nonneg c
  have hhigh := highNom_nonneg c sym
  omega

section WellFormed
variable {c : Cfg} (h : cfgWf c = true)
include h

theorem tickInt_toTick_of_mem {z : Int} (hz : 0 ≤ z) (hmem : z ∈ tickValues c) : tickInt (toTick z) = z :=
  tickInt_toTick hz (cfgWf_fits h z hmem)

theorem tickInt_lowDuration (sym : Symbol) : tickInt (lowDuration c sym) = lowNom c sym := by
  obtain ⟨hlow, -⟩ := symbolTable_eq_symbolRow c sym
  refine tickInt_toTick_of_mem h (hlow ▸ ticksOf_nonneg c _) ?_
  cases sym <;> simp [tickValues]

theorem tickInt_highDuration (sym : Symbol) : tickInt (highDuration c sym) = highNom c sym := by
  refine tickInt_toTick_of_mem h (highNom_nonneg c sym) ?_
  cases sym <;> simp [tickValues]

theorem tickInt_freeTime (tier : Tier) : tickInt (freeTime c tier) = freeTimeInt c tier := by
  refine tickInt_toTick_of_mem h (freeTimeInt_eq c tier ▸ ticksOf_nonneg c _) ?_
  cases tier <;> simp [tickValues]

theorem freeTime_toNat (tier : Tier) : (freeTime c tier).toNat = freeTimeMul tier * (2400 * c.ticksPerUs) := by
  rw [← mul_assoc, ← tickInt_eq_ticksOf_iff, tickInt_freeTime h, freeTimeInt_eq]

theorem tickInt_capLow (sym : Symbol) :
    tickInt (capLow c sym) = if sym = .start then capStartLow c else capDataLow c := by
  have hdata : 0 ≤ capDataLow c :=
    add_nonneg (le_max_of_le_left (ticksOf_nonneg c c.d0MaxLowUs)) (tol_nonneg c)
  cases sym with
  | start =>
    exact tickInt_toTick_of_mem h (add_nonneg (ticksOf_nonneg c c.startMaxLowUs) (tol_nonneg c)) (by simp [tickValues])
  | data0 => exact tickInt_toTick_of_mem h hdata (by simp [tickValues])
  | data1 => exact tickInt_toTick_of_mem h hdata (by simp [tickValues])

theorem tickInt_capHigh (sym : Symbol) :
    tickInt (capHigh c sym) = if sym = .start then capStartHigh c else capDataHigh c := by
  have hdata : 0 ≤ capDataHigh c := le_max_of_le_left (widestHigh_nonneg h .data0)
  cases sym with
  | start => exact tickInt_toTick_of_mem h (widestHigh_nonneg h .start) (by simp [tickValues])
  | data0 => exact tickInt_toTick_of_mem h hdata (by simp [tickValues])
  | data1 => exact tickInt_toTick_of_mem h hdata (by simp [tickValues])

/-! ### The fallback timeouts against the windows (R179, R398) -/

theorem maxLow_add_tol_le_capLow (sym : Symbol) : maxLow c sym + tol c ≤ tickInt (capLow c sym) := by
  rw [tickInt_capLow h]
  cases sym with
  | start => exact le_refl _
  | data0 => exact add_le_add_left (le_max_left _ _) _
  | data1 => exact add_le_add_left (le_max_right _ _) _

theorem widestHigh_le_capHigh (sym : Symbol) :
    maxTotal c sym + tol c - (minLow c sym - tol c) ≤ tickInt (capHigh c sym) := by
  rw [tickInt_capHigh h]
  cases sym with
  | start => exact le_refl _
  | data0 => exact le_max_left _ _
  | data1 => exact le_max_right _ _

/-- The upper end of a widened low window is a valid low. -/
theorem isValidLow_of_eq_upper {sym : Symbol} {t : Tick} (ht : tickInt t = maxLow c sym + tol c) :
    isValidLow c sym t = true := by
  obtain ⟨hmin, hmax, -⟩ := cfgWf_nominal h sym
  have htol := tol_nonneg c
  rw [isValidLow_iff]
  omega

/-- The longer of the two data lows is that of DATA0, as the windows are disjoint (R11 (d)). -/
theorem capDataLow_eq : capDataLow c = maxLow c .data0 + tol c := by
  obtain ⟨hmin, hmax, -⟩ := cfgWf_nominal h .data0
  have hdisj := cfgWf_disjoint h
  have htol := tol_nonneg c
  rw [capDataLow, max_eq_left (by omega)]

/-! ### Classification inside and outside the windows (R180) -/

/-- The widened data windows have no low in common (R11 (d)). -/
theorem isValidLow_data0_eq_false {t : Tick} (ht : isValidLow c .data1 t = true) : isValidLow c .data0 t = false := by
  obtain ⟨-, hupper⟩ := (isValidLow_iff c .data1 t).1 ht
  have hdisj := cfgWf_disjoint h
  exact (isValidLow_eq_false_iff ..).2 (.inl (by omega))

theorem classifyLow_of_isValidLow {b : Bool} {t : Tick} (ht : isValidLow c (dataSymbol b) t = true) :
    classifyLow c t = if b then .data1 else .data0 := by
  cases b with
  | false => exact (classifyLow_data0 c t).2 ht
  | true => exact (classifyLow_data1 c t).2 ⟨isValidLow_data0_eq_false h ht, ht⟩

end WellFormed

/-! ### The statements of R180 and R398 (O52, O53) -/

/-- Settles O52: a low inside a window is inside the widened one, and the other data window is disjoint from it. -/
theorem toleranceIsSymmetric : Obligations.ToleranceIsSymmetric := by
  intro c low high hc
  have htol := tol_nonneg c
  refine ⟨fun b hmin hmax htotMin htotMax => ⟨?_, ?_⟩, fun hout => ?_⟩
  · exact classifyLow_of_isValidLow hc ((isValidLow_iff ..).2 (by omega))
  · exact (isValidTotal_iff ..).2 (by omega)
  · exact (classifyLow_invalid ..).2
      ⟨(isValidLow_eq_false_iff ..).2 (hout false), (isValidLow_eq_false_iff ..).2 (hout true)⟩

/-- Settles O53: each timeout is at least the widest phase of its symbol, and those of the lows are the upper ends of
the start and the data-0 window. -/
theorem capsNeverCutAValidPhase : Obligations.CapsNeverCutAValidPhase := by
  intro c sym low high hc
  refine ⟨fun hlow => ?_, fun hlow htotal => ?_, isValidLow_of_eq_upper hc (tickInt_capLow hc .start), ?_⟩
  · obtain ⟨-, hmax⟩ := (isValidLow_iff ..).1 hlow
    exact Int.ofNat_le.1 (hmax.trans (maxLow_add_tol_le_capLow hc sym))
  · obtain ⟨hmin, -⟩ := (isValidLow_iff ..).1 hlow
    obtain ⟨-, hmax⟩ := (isValidTotal_iff ..).1 htotal
    have hwidest := widestHigh_le_capHigh hc sym
    have hhigh : tickInt high ≤ tickInt (capHigh c sym) := by omega
    exact Int.ofNat_le.1 hhigh
  · have hvalid : isValidLow c .data0 (capLow c .data0) = true :=
      isValidLow_of_eq_upper hc ((tickInt_capLow hc .data0).trans (capDataLow_eq hc))
    rw [(classifyLow_data0 ..).2 hvalid]
    decide

/-! ### The selectors, one by one -/

/-- Settles O47: the windows of R171 and R172 with the table's row in µs. -/
theorem windowsAreInclusiveAndWidened : Obligations.WindowsAreInclusiveAndWidened := by
  intro s sym t low high
  obtain ⟨-, -, hminLow, hmaxLow, hminTotal, hmaxTotal⟩ := symbolTable_eq_symbolRow s.cfg sym
  constructor
  · refine ⟨_, _, rfl, rfl, ?_, rfl, rfl, sameRegs_giveResult _ s, sameRun_giveResult _ s⟩
    rw [isValidLow_iff, hminLow, hmaxLow, tickInt, ticksOf_sub_tol_le_iff, le_ticksOf_add_tol_iff]
  · refine ⟨_, _, rfl, rfl, ?_, rfl, rfl, sameRegs_giveResult _ s, sameRun_giveResult _ s⟩
    rw [isValidTotal_iff, hminTotal, hmaxTotal, tickInt, tickInt, ← Nat.cast_add, ticksOf_sub_tol_le_iff,
      le_ticksOf_add_tol_iff]

/-- Settles O48: both fields hold the nominal duration of the table. -/
theorem nominalDurations : Obligations.NominalDurations := by
  intro s sym hc
  obtain ⟨hlow, hhigh, -⟩ := symbolTable_eq_symbolRow s.cfg sym
  constructor
  · refine ⟨_, _, rfl, rfl, ?_, rfl, rfl, sameRegs_giveResult _ s, sameRun_giveResult _ s⟩
    rw [← tickInt_eq_ticksOf_iff, tickInt_lowDuration hc, hlow]
  · refine ⟨_, _, rfl, rfl, ?_, rfl, rfl, sameRegs_giveResult _ s, sameRun_giveResult _ s⟩
    rw [← tickInt_eq_ticksOf_iff, tickInt_highDuration hc, hhigh]

/-- Settles O49: the three answers of CLASSIFY, each by its window tests. -/
theorem classifyTestsDataZeroFirst : Obligations.ClassifyTestsDataZeroFirst := by
  intro s t
  exact ⟨_, _, rfl, rfl, rfl, rfl, sameRegs_giveResult _ s, sameRun_giveResult _ s, classifyLow_data0 s.cfg t,
    classifyLow_data1 s.cfg t, classifyLow_invalid s.cfg t⟩

/-- Settles O50: the constants of R179 in µs, the maximum taken before the rate is multiplied in. -/
theorem fallbackTimeouts : Obligations.FallbackTimeouts := by
  intro s sym hc
  have hrate : (0 : Int) ≤ s.cfg.ticksPerUs := Int.natCast_nonneg _
  constructor
  · refine ⟨_, _, rfl, rfl, ?_, rfl, rfl, sameRegs_giveResult _ s, sameRun_giveResult _ s⟩
    rw [← tickInt_eq_ticksOf_iff, tickInt_capLow hc]
    split
    · rw [ticksOf_add]
      rfl
    · rw [ticksOf_add, ticksOf_max]
      rfl
  · refine ⟨_, _, rfl, rfl, ?_, rfl, rfl, sameRegs_giveResult _ s, sameRun_giveResult _ s⟩
    rw [toNat_eq_tickInt, tickInt_capHigh hc]
    split
    · simp only [capStartHigh, maxTotal, minLow, tol, ticksOf, tolUs, Nat.cast_ofNat, add_mul, sub_mul]
    · simp only [capDataHigh, maxTotal, minLow, tol, ticksOf, tolUs, Nat.cast_ofNat, add_mul, sub_mul,
        max_mul_of_nonneg _ _ hrate]

/-- Settles O51: the free times are multiples of the bit period, and the entry arms that of the tier it selects. -/
theorem freeTimesAndTheirTier : Obligations.FreeTimesAndTheirTier := by
  refine ⟨fun s tier hc => ?_, fun s line hc => ?_⟩
  · refine ⟨_, _, rfl, rfl, ?_, rfl, rfl, sameRegs_giveResult _ s, sameRun_giveResult _ s⟩
    rw [freeTime_toNat hc]
    cases tier <;> rfl
  · obtain ⟨-, -, htmo⟩ := enter_armed .txFreeTime line s (by simp)
    rw [htmo, tableArm, Option.getD_some, freeTime_toNat hc, freeTimeMul_selectTier]

end Sys2Proof.Machine
end

section
/-! SUPPORT. PROOFS. Debounce Filter (42_debounce.md): CLASSIFY and QUIET read in µs, the three steps of a glitch, and the
quiet periods of a run of glitches as iterates of the count. -/

namespace Sys2Proof.Machine

/-! ### CLASSIFY (R201) -/

theorem tickInt_lt_debLimit_iff (c : Cfg) (t : Tick) : tickInt t < debLimit c ↔ t.toNat < 200 * c.ticksPerUs := by
  rw [tickInt, debLimit, ticksOf]
  norm_cast

theorem classifyStart_of_valid {c : Cfg} {t : Tick} (hv : isValidLow c .start t = true) :
    classifyStart c t = .validStart := by
  rw [classifyStart, if_pos hv]

/-- Outside the valid window the glitch limit decides. -/
theorem classifyStart_of_not_valid {c : Cfg} {t : Tick} (hv : isValidLow c .start t = false) :
    classifyStart c t = if tickInt t < debLimit c then .glitch else .abort := by
  rw [classifyStart, hv, if_neg Bool.false_ne_true]

/-- A low below the glitch limit is below the widened start window (R11 (e)). -/
theorem isValidLow_start_eq_false_of_glitch {c : Cfg} {t : Tick} (hc : cfgWf c = true) (ht : tickInt t < debLimit c) :
    isValidLow c .start t = false :=
  (isValidLow_eq_false_iff ..).2 (Or.inl (ht.trans_le (cfgWf_glitch hc)))

theorem classifyStart_of_glitch {c : Cfg} {t : Tick} (hc : cfgWf c = true) (ht : tickInt t < debLimit c) :
    classifyStart c t = .glitch := by
  rw [classifyStart_of_not_valid (isValidLow_start_eq_false_of_glitch hc ht), if_pos ht]

/-- A low below the glitch limit ends before the timeout of RxStartLow, so it is never a late capture. -/
theorem tickInt_le_capLow_of_glitch {c : Cfg} {t : Tick} (hc : cfgWf c = true) (ht : tickInt t < debLimit c) :
    tickInt t ≤ tickInt (capLow c .start) := by
  obtain ⟨hmin, hmax, -⟩ := cfgWf_nominal hc .start
  have hlimit := cfgWf_glitch hc
  have htol := tol_nonneg c
  have hcap := maxLow_add_tol_le_capLow hc .start
  omega

/-! ### QUIET (R202) -/

theorem quietPeriod_toNat {c : Cfg} (hc : cfgWf c = true) (dbc : BitVec 2) :
    (quietPeriod c dbc).toNat = (if dbc.toNat < 3 then 100 else 500) * c.ticksPerUs := by
  have hlong : tickInt (toTick (debLong c)) = debLong c :=
    tickInt_toTick_of_mem hc (ticksOf_nonneg c debLongUs) (by simp [tickValues])
  have hshort : tickInt (toTick (debShort c)) = debShort c :=
    tickInt_toTick_of_mem hc (ticksOf_nonneg c debShortUs) (by simp [tickValues])
  by_cases h : dbc.toNat < 3
  · rw [quietPeriod, if_neg (not_le.2 h), if_pos h, ← tickInt_eq_ticksOf_iff, hshort, debShort]
  · rw [quietPeriod, if_pos (not_lt.1 h), if_neg h, ← tickInt_eq_ticksOf_iff, hlong, debLong]

theorem quietCount_toNat (c : Cfg) (dbc : BitVec 2) :
    (quietCount c dbc).toNat =
      if dbc.toNat < 3 then dbc.toNat + 1 else if c.debounceResetAfterLong then 0 else dbc.toNat := by
  by_cases h : dbc.toNat < 3
  · rw [quietCount, if_neg (not_le.2 h), if_pos h, BitVec.toNat_add, Nat.mod_eq_of_lt]
    · rfl
    · exact Nat.succ_lt_succ h
  · rw [quietCount, if_pos (not_lt.1 h), if_neg h]
    split <;> rfl

/-- The count after `i` glitches from 0: it goes round at 4, or stays at 3 (R204). -/
theorem quietCount_iterate_zero (c : Cfg) (i : Nat) :
    ((quietCount c)^[i] 0).toNat = if c.debounceResetAfterLong then i % 4 else min i 3 := by
  induction i with
  | zero => split <;> rfl
  | succ i ih =>
    rw [Function.iterate_succ_apply', quietCount_toNat, ih]
    split <;> split <;> omega

/-! ### The selectors -/

theorem sameRegsBut_mapDbc (f : BitVec 2 → BitVec 2) (s : State) :
    sameRegsBut [.rxDbc] s (s.mapRx fun rx => { rx with dbc := f rx.dbc }) := by
  intro r hr
  cases r with
  | rxDbc => exact absurd (List.mem_singleton_self _) hr
  | _ => rfl

/-- Settles O55: CLASSIFY by its two tests, QUIET and RESET as writes of RX_DBC. -/
theorem debounceOperations : Obligations.DebounceOperations := by
  intro s hc
  refine ⟨fun t => ?_, ?_, ?_⟩
  · refine ⟨_, _, rfl, rfl, classifyStart_of_valid, fun hv hlt => ?_, fun hv hle => ?_, rfl, rfl,
      sameRegs_giveResult _ s, sameRun_giveResult _ s⟩
    · rw [classifyStart_of_not_valid hv, if_pos ((tickInt_lt_debLimit_iff ..).2 hlt)]
    · rw [classifyStart_of_not_valid hv, if_neg (mt (tickInt_lt_debLimit_iff ..).1 (not_lt.2 hle))]
  · have hperiod := quietPeriod_toNat hc s.rx.dbc
    have hcount := quietCount_toNat s.cfg s.rx.dbc
    refine ⟨_, _, rfl, rfl, fun hshort => ?_, fun hlong => ?_, rfl, rfl,
      (sameRegsBut_mapDbc (quietCount s.cfg) s.beginStep).of_beginStep, ⟨rfl, rfl, rfl, rfl⟩⟩
    · rw [if_pos hshort] at hperiod hcount
      exact ⟨hperiod, hcount⟩
    · rw [if_neg (not_lt.2 hlong)] at hperiod hcount
      exact ⟨hperiod, hcount⟩
  · exact ⟨_, rfl, rfl, (sameRegsBut_mapDbc (fun _ => 0) s.beginStep).of_beginStep, ⟨rfl, rfl, rfl⟩,
      ⟨rfl, rfl, rfl, rfl⟩⟩

/-! ### The three steps of a glitch (R273, R275, R308) -/

/-- After the falling edge of a glitch in Idle. -/
def lowBegun (s : State) : State := enter .rxStartLow none s.beginStep

/-- After the end of its low. -/
def quietBegun (s : State) : State := enter .rxDebounce none (lowBegun s).beginStep

/-- After the end of its quiet period. -/
def quietEnded (line : Level) (s : State) : State := enter .idle (some line) (quietBegun s).beginStep

@[simp] theorem lowBegun_state (s : State) : (lowBegun s).state = .rxStartLow := rfl
@[simp] theorem quietBegun_state (s : State) : (quietBegun s).state = .rxDebounce := rfl
@[simp] theorem quietBegun_armTmo (s : State) : (quietBegun s).armTmo = quietPeriod s.cfg s.rx.dbc := rfl

@[simp] theorem quietEnded_cfg (line : Level) (s : State) : (quietEnded line s).cfg = s.cfg := by
  rw [quietEnded, enter_cfg]
  rfl

@[simp] theorem quietEnded_dbc (line : Level) (s : State) :
    (quietEnded line s).rx.dbc = quietCount s.cfg s.rx.dbc := by
  rw [quietEnded, enter_rx]
  rfl

/-- With no frame pending the end of the quiet period leads to Idle and not on to TxFreeTime. -/
theorem quietEnded_state (line : Level) {s : State} (h : s.tx.len = 0) : (quietEnded line s).state = .idle :=
  enter_state_of _ _ _ fun _ => h

/-- In Idle a falling edge is armed and no timeout, so every capture is taken. -/
theorem exec_evCapture_idle {s : State} (hp : ProtoInv s) (hs : s.state = .idle) (t : Tick) :
    exec (.evCapture t) s = .next (lowBegun s) := by
  obtain ⟨⟨-, -, -, -, -, htv, -, hedge, -⟩, -⟩ := hp
  rw [hs] at htv hedge
  rw [exec_evCapture_of_admits, hs, captureIn, lowBegun]
  simp [contractAdmits, isLateCapture, htv, hedge, stateTimeout, stateEdge]

/-- The end of a glitch comes before the armed timeout, and leads to RxDebounce. -/
theorem exec_evCapture_lowBegun {s : State} {t : Tick} (hc : cfgWf s.cfg = true) (ht : tickInt t < debLimit s.cfg) :
    exec (.evCapture t) (lowBegun s) = .next (quietBegun s) := by
  have hcfg : (lowBegun s).cfg = s.cfg := rfl
  have hedge : (lowBegun s).armEdge = .rising := rfl
  have htmo : t.toNat ≤ (lowBegun s).armTmo.toNat := Int.ofNat_le.1 (tickInt_le_capLow_of_glitch hc ht)
  rw [exec_evCapture_of_admits, lowBegun_state, captureIn, captureRxStartLow, beginStep_cfg, hcfg,
    classifyStart_of_glitch hc ht, quietBegun]
  simp [contractAdmits, isLateCapture, hedge, htmo]

theorem exec_evTimeout_quietBegun (line : Level) (s : State) :
    exec (.evTimeout line) (quietBegun s) = .next (quietEnded line s) :=
  exec_evTimeout_of_armed rfl

section Glitch

variable {s : State} (hc : cfgWf s.cfg = true) (hp : ProtoInv s) (hs : s.state = .idle) {g : Tick × Tick × Level}
  (hg : tickInt g.2.1 < debLimit s.cfg)
include hc hp hs hg

/-- A glitch ends in Idle as it began, but for the count. -/
theorem quietEnded_protoInv : ProtoInv (quietEnded g.2.2 s) := by
  have hlow := exec_protoInv rfl hp (exec_evCapture_idle hp hs g.1)
  have hquiet := exec_protoInv rfl hlow (exec_evCapture_lowBegun hc hg)
  exact exec_protoInv rfl hquiet (exec_evTimeout_quietBegun g.2.2 s)

theorem trail_glitchOps_cons (gs : List (Tick × Tick × Level)) :
    trail (glitchOps (g :: gs)) s =
      lowBegun s :: quietBegun s :: quietEnded g.2.2 s :: trail (glitchOps gs) (quietEnded g.2.2 s) := by
  simp only [glitchOps, List.flatMap_cons, List.cons_append, List.nil_append, trail, exec_evCapture_idle hp hs,
    exec_evCapture_lowBegun hc hg, exec_evTimeout_quietBegun]

theorem after_glitchOps_cons (gs : List (Tick × Tick × Level)) :
    after (glitchOps (g :: gs)) s = after (glitchOps gs) (quietEnded g.2.2 s) := by
  simp only [glitchOps, List.flatMap_cons, List.cons_append, List.nil_append, after, exec_evCapture_idle hp hs,
    exec_evCapture_lowBegun hc hg, exec_evTimeout_quietBegun]

/-- Of the three states of a glitch only the middle one arms a quiet period, that of the count. -/
theorem quietPeriods_glitchOps_cons (hlen : s.tx.len = 0) (gs : List (Tick × Tick × Level)) :
    quietPeriods (glitchOps (g :: gs)) s =
      quietPeriod s.cfg s.rx.dbc :: quietPeriods (glitchOps gs) (quietEnded g.2.2 s) := by
  simp [quietPeriods, trail_glitchOps_cons hc hp hs hg, quietEnded_state _ hlen]

end Glitch

/-! ### Runs of glitches (R204) -/

/-- A run of glitches from Idle, whatever was counted before it: its `i`-th quiet period is that of the count after `i`
more glitches. -/
theorem quietPeriods_glitchOps (gs : List (Tick × Tick × Level)) {s : State} (hc : cfgWf s.cfg = true) (hp : ProtoInv s)
    (hs : s.state = .idle) (hgs : ∀ g ∈ gs, tickInt g.2.1 < debLimit s.cfg) :
    quietPeriods (glitchOps gs) s =
        (List.range gs.length).map (fun i => quietPeriod s.cfg ((quietCount s.cfg)^[i] s.rx.dbc)) ∧
      ∃ u, after (glitchOps gs) s = some u ∧ u.state = .idle := by
  induction gs generalizing s with
  | nil => exact ⟨rfl, s, rfl, hs⟩
  | cons g gs ih =>
    obtain ⟨hg, hgs⟩ := List.forall_mem_cons.1 hgs
    have hlen : s.tx.len = 0 := by
      obtain ⟨⟨-, -, -, hfree, -⟩, -⟩ := hp
      exact hfree hs
    obtain ⟨ihperiods, ihafter⟩ := ih (s := quietEnded g.2.2 s) (by rwa [quietEnded_cfg])
      (quietEnded_protoInv hc hp hs hg) (quietEnded_state _ hlen) (by rwa [quietEnded_cfg])
    rw [quietEnded_cfg, quietEnded_dbc] at ihperiods
    rw [quietPeriods_glitchOps_cons hc hp hs hg hlen, after_glitchOps_cons hc hp hs hg, ihperiods, List.length_cons,
      List.range_succ_eq_map, List.map_cons, List.map_map]
    exact ⟨rfl, ihafter⟩

/-- Settles O56: the count of the `i`-th glitch of a run from 0 is below 3 exactly where the rule says the period is
short. -/
theorem glitchesEscalateTheQuietPeriod : Obligations.GlitchesEscalateTheQuietPeriod := by
  intro s gs hc hp hs hdbc hgs
  obtain ⟨hperiods, hafter⟩ := quietPeriods_glitchOps gs hc hp hs hgs
  refine ⟨?_, hafter⟩
  rw [hperiods, List.map_map]
  refine List.map_congr_left fun i _ => ?_
  rw [Function.comp_apply, quietPeriod_toNat hc, hdbc, quietCount_iterate_zero]
  cases s.cfg.debounceResetAfterLong with
  | false =>
    have hcond : min i 3 < 3 ↔ i < 3 := by omega
    simp only [Bool.false_eq_true, if_false, hcond]
  | true =>
    have hcond : i % 4 < 3 ↔ ¬ (i + 1) % 4 = 0 := by omega
    simp only [if_true, hcond, ite_not]

end Sys2Proof.Machine
end

section
/-! SUPPORT. PROOFS. State entry (43_state_entry.md): the record of an entry holds the drive and the arm column of R223, and
the transitions out of the states that hold the line low release it (R254). -/

namespace Sys2Proof.Machine

/-! ### The record of an entry (R223) -/

/-- An entry drives the level of the drive column; where the column is empty what was driven before it stands. -/
theorem enter_out_gpio (p : PState) (line : Option Level) (s : State) (hp : p = .idle → s.tx.len = 0) :
    (enter p line s).out.gpio = (tableDrive s p).or s.out.gpio := by
  cases p with
  | idle => rw [enter_idle_of_eq line s (hp rfl)]; rfl
  | rxAckLow =>
    by_cases hd : s.rx.bb.dest.toNat ≠ 15 ∧ s.rx.bb.dest.toNat = s.laddr.toNat
    · simp only [enter, entryAction, entryRxAckLow, (drivesAck_iff _ _).2 hd, tableDrive, bcastAddr, if_pos hd, if_true,
        arm_out, drive_out, Option.some_or]
    · simp only [enter, entryAction, entryRxAckLow, mt (drivesAck_iff _ _).1 hd, tableDrive, bcastAddr, if_neg hd,
        Bool.false_eq_true, if_false, arm_out, Option.none_or]
  | rxAckFinish =>
    simp only [enter, entryAction, entryRxAckFinish]
    split <;> [(split <;> rfl); rfl]
  | _ => rfl

/-- An entry issues one arm command, that of the arm column (R221). -/
theorem enter_out_arm (p : PState) (line : Option Level) (s : State) (hp : p = .idle → s.tx.len = 0) :
    (enter p line s).out.arm = some (tableArm s p) := by
  cases p with
  | idle => rw [enter_idle_of_eq line s (hp rfl)]; rfl
  | rxAckFinish =>
    simp only [enter, entryAction, entryRxAckFinish, tableArm, isFinalByte_iff]
    split <;> rfl
  | _ => rfl

/-- An entry that chains nowhere produces its row of R223. -/
theorem enter_producedEntry (p : PState) (line : Option Level) {s : State} (hout : s.out = noOut)
    (hp : p = .idle → s.tx.len = 0) :
    producedEntry s (enter p line s) (tableDrive s p) (tableArm s p).1 (tableArm s p).2 := by
  have hgpio := enter_out_gpio p line s hp
  rw [hout, noOut_gpio, Option.or_none] at hgpio
  exact ⟨hgpio, enter_out_arm p line s hp, enter_gpioOut p line s hp, enter_armed p line s hp⟩

/-- Settles O22: the row of the state entered, and for the chained Idle entry the row of TxFreeTime, which reads no
register that the Idle entry resets (R225). -/
theorem entriesDriveAndArmAsTheTable : Obligations.EntriesDriveAndArmAsTheTable := by
  intro p line s hout
  refine ⟨enter_producedEntry p line hout, ?_⟩
  rintro rfl hpending
  rw [enter_idle_eq, if_neg hpending]
  have hchained : (idleResets s).out = noOut := hout
  exact enter_producedEntry .txFreeTime line hchained fun hd => absurd hd (by decide)

/-! ### The line is let go (R254) -/

/-- Entering Idle releases the line, also where it chains into TxFreeTime. -/
theorem enter_idle_gpioOut (line : Option Level) (s : State) : (enter .idle line s).gpioOut = released := by
  rw [enter_idle_eq]
  split
  next h0 => exact enter_gpioOut .idle line (idleResets s) fun _ => h0
  next => rfl

theorem enter_gpioOut_released {p : PState} (line : Option Level) {s : State} (h : tableDrive s p = some released) :
    (enter p line s).gpioOut = released := by
  by_cases hi : p = .idle
  · rw [hi]
    exact enter_idle_gpioOut line s
  · rw [enter_gpioOut p line s fun h0 => absurd h0 hi, h, Option.getD_some]

/-- A timeout in a state that may hold the line low leads to a state whose entry releases it, but for the sample of an
ACK. -/
theorem timeoutTargets_release {p q : PState} (hq : q ∈ timeoutTargets p) (hlow : mayHoldLow p = true) (u : State) :
    tableDrive u q = some released ∨ (p = .rxAckLow ∧ q = .rxAckVerify) := by
  cases p with
  | txStartLow | txHeaderInitLow | txHeaderDestLow | txDataLow | txEomLow | txAckLow =>
    rw [List.mem_singleton.1 hq]; exact Or.inl rfl
  | rxAckLow => exact Or.inr ⟨rfl, List.mem_singleton.1 hq⟩
  | rxAckVerify =>
    rcases List.mem_pair.1 hq with rfl | rfl <;> exact Or.inl rfl
  | _ => cases hlow

/-- No capture is taken while the line may be low. -/
theorem captureIn_of_mayHoldLow {s : State} (t : Tick) (h : BaseInv s) (hlow : mayHoldLow s.state = true) :
    captureIn s.state t s = s := by
  refine (captureIn_enters h.buffers h.legal s.state t).resolve_right ?_
  rintro ⟨q, hq, -⟩
  exact Bool.false_ne_true ((captureTargets_mayHoldLow hq).symm.trans hlow)

theorem timeoutIn_letsGo {s : State} (line : Level) (h : BaseInv s) (hlow : mayHoldLow s.state = true) :
    (timeoutIn s.state line s).gpioOut = released ∨ (timeoutIn s.state line s).state = s.state ∨
      (s.state = .rxAckLow ∧ (timeoutIn s.state line s).state = .rxAckVerify) := by
  rcases timeoutIn_enters h.buffers h.legal s.state line with hstay | ⟨q, hq, l, u, heq, -⟩
  · exact Or.inr (Or.inl (congrArg State.state hstay))
  rw [heq]
  rcases timeoutTargets_release hq hlow u with hdrive | ⟨hack, rfl⟩
  · exact Or.inl (enter_gpioOut_released l hdrive)
  · exact Or.inr (Or.inr ⟨hack, rfl⟩)

/-- Settles O21: a capture is ignored where the line is low, a timeout is followed through its column of R310, and the entry
of every state that a command leads to releases the line. -/
theorem lineLowIsLetGo : Obligations.LineLowIsLetGo := by
  intro i s t hi hs h hlow
  obtain ⟨hbase, -⟩ := hs
  have hmay := hbase.line hlow
  cases i with
  | evCapture e =>
    right; left
    simp only [exec, execEvCapture] at h
    split at h
    · cases h; rfl
    · split at h <;> cases h
      · rfl
      · have hstay := captureIn_of_mayHoldLow e (baseInv_beginStep hbase) hmay
        rw [beginStep_state] at hstay
        rw [hstay, beginStep_state]
  | evTimeout l =>
    simp only [exec, execEvTimeout] at h
    split at h <;> cases h
    · exact timeoutIn_letsGo l (baseInv_beginStep hbase) hmay
    · exact Or.inr (Or.inl rfl)
  | cmdEnable =>
    cases h
    split
    · exact Or.inl (enter_idle_gpioOut none _)
    · exact Or.inr (Or.inl rfl)
  | cmdDisable => cases h; exact Or.inl rfl
  | cmdSetAddr a => cases h; right; left; split <;> rfl
  | cmdSubmit n d =>
    cases h
    split
    · exact Or.inr (Or.inl rfl)
    · split
      · exact Or.inr (Or.inl rfl)
      · split
        · exact Or.inr (Or.inl rfl)
        · split
          · exact Or.inl rfl
          · exact Or.inr (Or.inl rfl)
  | _ => cases hi

end Sys2Proof.Machine
end

section
/-! SUPPORT. PROOFS. State events (44_state_events.md), captures: what a transition hands to the entry it enters, what each
transition on a capture does, and the statements read off the two. -/

namespace Sys2Proof.Machine

/-! ### Unarmed events (R272) -/

theorem sameRun_beginStep (s : State) : sameRun s s.beginStep := ⟨rfl, rfl, rfl, rfl⟩

theorem quiet_beginStep (s : State) : quiet s.beginStep := ⟨rfl, rfl, rfl⟩

/-- Settles O23: with nothing armed the step begins and the event is dropped. -/
theorem unarmedEventsAreIgnored : Obligations.UnarmedEventsAreIgnored := by
  intro s
  refine ⟨fun hedge t => ⟨s.beginStep, ?_, sameRegs_beginStep s, sameRun_beginStep s, quiet_beginStep s⟩,
    fun htv l => ⟨s.beginStep, ?_, sameRegs_beginStep s, sameRun_beginStep s, quiet_beginStep s⟩⟩
  · simp only [exec, execEvCapture, hedge, if_true]
  · simp only [exec, execEvTimeout, htv, Bool.false_eq_true, if_false]

/-! ### What a transition hands to the entry it enters -/

/-- `v` is `s` in the course of a transition, before an entry: the contexts may have been written, nothing is produced
yet, and the line, the address and the configuration are those of `s`. -/
structure Begun (s v : State) : Prop where
  out : v.out = noOut
  selResult : v.selResult = none
  abortCause : v.abortCause = none
  laddr : v.laddr = s.laddr
  gpioOut : v.gpioOut = s.gpioOut
  cfg : v.cfg = s.cfg

theorem begun_beginStep (s : State) : Begun s s.beginStep := ⟨rfl, rfl, rfl, rfl, rfl, rfl⟩

section Begun

variable {s v : State} (h : Begun s v)
include h

theorem Begun.mapRx (f : RxCtx → RxCtx) : Begun s (v.mapRx f) :=
  ⟨h.out, h.selResult, h.abortCause, h.laddr, h.gpioOut, h.cfg⟩

theorem Begun.mapTx (f : TxCtx → TxCtx) : Begun s (v.mapTx f) :=
  ⟨h.out, h.selResult, h.abortCause, h.laddr, h.gpioOut, h.cfg⟩

/-- The row of R223 is produced, whatever the contexts written on the way. -/
theorem Begun.producedEntry (p : PState) (line : Option Level) (hp : p = .idle → v.tx.len = 0) :
    producedEntry s (enter p line v) (tableDrive v p) (tableArm v p).1 (tableArm v p).2 := by
  have hrow := enter_producedEntry p line h.out hp
  rwa [Machine.producedEntry, h.gpioOut] at hrow

/-- An entry that neither delivers a frame nor ends an abort replies nothing and notifies nothing. -/
theorem Begun.plainEntry {p : PState} (line : Option Level) (hf : p ≠ .rxAckFinish) : plainEntry (enter p line v) := by
  rw [Machine.plainEntry, enter_abortCause, enter_out_notify p line v hf, enter_out_result, enter_selResult, h.out]
  exact ⟨h.abortCause, rfl, rfl, h.selResult⟩

/-- What a transition comes to that enters `p` from `v`, the contexts being those its entry leaves. Idle, which may chain,
and RxAckFinish, which may deliver, have laws of their own. -/
theorem Begun.entered {p : PState} (line : Option Level) (hi : p ≠ .idle) (hf : p ≠ .rxAckFinish) {rx : RxCtx} {tx : TxCtx}
    (hrx : (enter p line v).rx = rx) (htx : (enter p line v).tx = tx) :
    (enter p line v).state = p ∧ (enter p line v).rx = rx ∧ (enter p line v).tx = tx ∧ (enter p line v).laddr = s.laddr ∧
      Machine.producedEntry s (enter p line v) (tableDrive v p) (tableArm v p).1 (tableArm v p).2 ∧
      Machine.plainEntry (enter p line v) :=
  ⟨enter_state_of p line v (absurd · hi), hrx, htx, (enter_laddr p line v).trans h.laddr,
    h.producedEntry p line (absurd · hi), h.plainEntry line hf⟩

/-- A transition that enters Idle and raises no abort. -/
theorem Begun.enteredIdle (line : Option Level) (hrx : v.rx = s.rx) (htx : v.tx = s.tx) :
    enteredIdle s (enter .idle line v) := enteredIdle_enter line hrx htx h.laddr h.cfg

/-- A transition that aborts (R350). -/
theorem Begun.aborted (cause : AbortCause) (hrx : v.rx = s.rx) (htx : v.tx = s.tx) :
    aborted cause s (raiseAbort cause v) := by
  refine ⟨raiseAbort_abortCause cause v, enteredIdle_enter none hrx htx h.laddr h.cfg, ?_, ?_, ?_⟩
  · rw [raiseAbort_out_notify, h.out, noOut_notify]
  · rw [raiseAbort_out_result, h.out, noOut_result]
  · rw [raiseAbort_selResult, h.selResult]

end Begun

/-! ### The step of an event that is armed -/

theorem sameRun_captureIn (p : PState) (t : Tick) (s : State) : sameRun s (captureIn p t s.beginStep) :=
  ⟨captureIn_cfg .., captureIn_inputs .., captureIn_refusedMark .., captureIn_freeDraws ..⟩

theorem sameRun_timeoutIn (p : PState) (l : Level) (s : State) : sameRun s (timeoutIn p l s.beginStep) :=
  ⟨timeoutIn_cfg .., timeoutIn_inputs .., timeoutIn_refusedMark .., timeoutIn_freeDraws ..⟩

theorem exec_evCapture_in {s : State} {p : PState} {t : Tick} (hs : s.state = p)
    (h : contractAdmits s (.evCapture t) = true) : exec (.evCapture t) s = .next (captureIn p t s.beginStep) :=
  hs ▸ exec_evCapture_of_admits h

theorem exec_evTimeout_in {s : State} {p : PState} {l : Level} (hs : s.state = p) (h : s.armTv = true) :
    exec (.evTimeout l) s = .next (timeoutIn p l s.beginStep) :=
  hs ▸ exec_evTimeout_of_armed h

/-- A capture the collaborator may deliver in `p` does what the transition of `p` does, and keeps the run's own fields. -/
theorem step_of_capture {s : State} {p : PState} {t : Tick} (hs : s.state = p) (h : contractAdmits s (.evCapture t) = true)
    {P : State → Prop} (hP : P (captureIn p t s.beginStep)) :
    ∃ u, exec (.evCapture t) s = .next u ∧ sameRun s u ∧ P u :=
  ⟨_, exec_evCapture_in hs h, sameRun_captureIn p t s, hP⟩

/-- A timeout that is armed in `p` does what the transition of `p` does, and keeps the run's own fields. -/
theorem step_of_timeout {s : State} {p : PState} {l : Level} (hs : s.state = p) (h : s.armTv = true)
    {P : State → Prop} (hP : P (timeoutIn p l s.beginStep)) :
    ∃ u, exec (.evTimeout l) s = .next u ∧ sameRun s u ∧ P u :=
  ⟨_, exec_evTimeout_in hs h, sameRun_timeoutIn p l s, hP⟩

/-! ### The branches of the transitions on a capture (R275 to R284) -/

section Branches

variable (s : State) {t : Tick}

theorem captureRxStartLow_of_valid (hv : isValidLow s.cfg .start t = true) :
    captureRxStartLow t s = enter .rxStartHigh none ((debounceReset s).mapRx fun rx => { rx with low := t }) := by
  rw [captureRxStartLow, classifyStart_of_valid hv]

theorem captureRxStartLow_of_glitch (hv : isValidLow s.cfg .start t = false) (hg : tickInt t < debLimit s.cfg) :
    captureRxStartLow t s = enter .rxDebounce none s := by
  rw [captureRxStartLow, classifyStart_of_not_valid hv, if_pos hg]

theorem captureRxStartLow_of_invalid (hv : isValidLow s.cfg .start t = false) (hg : debLimit s.cfg ≤ tickInt t) :
    captureRxStartLow t s = raiseAbort .startLowInvalid (debounceReset s) := by
  rw [captureRxStartLow, classifyStart_of_not_valid hv, if_neg (not_lt.2 hg)]

theorem captureRxStartHigh_of_valid (hv : isValidTotal s.cfg .start s.rx.low t = true) :
    captureRxStartHigh t s = enter .rxHeaderInitLow none s := by
  rw [captureRxStartHigh, if_pos hv]

theorem captureRxStartHigh_of_invalid (hv : isValidTotal s.cfg .start s.rx.low t = false) :
    captureRxStartHigh t s = raiseAbort .startTotalInvalid s := by
  rw [captureRxStartHigh, if_neg (Bool.eq_false_iff.1 hv)]

theorem receiveBitLow_of_invalid (next : PState) (hc : classifyLow s.cfg t = .invalid) :
    receiveBitLow next t s = raiseAbort .bitLowInvalid s := by
  rw [receiveBitLow, if_pos hc]

theorem receiveBitLow_of_valid (next : PState) (hc : classifyLow s.cfg t ≠ .invalid) :
    receiveBitLow next t s =
      enter next none (s.mapRx fun rx => { rx with bb := rx.bb.setBit (classBit (classifyLow s.cfg t)), low := t }) := by
  rw [receiveBitLow, if_neg hc]

theorem receiveEomLow_of_invalid (hc : classifyLow s.cfg t = .invalid) :
    receiveEomLow t s = raiseAbort .bitLowInvalid s := by
  rw [receiveEomLow, if_pos hc]

theorem receiveEomLow_of_valid (hc : classifyLow s.cfg t ≠ .invalid) :
    receiveEomLow t s =
      enter .rxEomHigh none (s.mapRx fun rx => { rx with eom := classBit (classifyLow s.cfg t), low := t }) := by
  rw [receiveEomLow, if_neg hc]

theorem receiveBitHigh_of_invalid (stop : BitVec 3) (last more : PState)
    (hv : isValidTotal s.cfg (dataSymbol s.rx.bb.getBit) s.rx.low t = false) :
    receiveBitHigh stop last more t s = raiseAbort .bitTotalInvalid s := by
  rw [receiveBitHigh, if_neg (Bool.eq_false_iff.1 hv)]

theorem receiveBitHigh_of_valid (stop : BitVec 3) (last more : PState)
    (hv : isValidTotal s.cfg (dataSymbol s.rx.bb.getBit) s.rx.low t = true) :
    receiveBitHigh stop last more t s =
      enter (if s.rx.bb.incBit.bit = stop then last else more) none (s.mapRx fun rx => { rx with bb := rx.bb.incBit }) := by
  rw [receiveBitHigh, if_pos hv]

theorem receiveEomHigh_of_invalid (hv : isValidTotal s.cfg (dataSymbol s.rx.eom) s.rx.low t = false) :
    receiveEomHigh t s = raiseAbort .bitTotalInvalid s := by
  rw [receiveEomHigh, if_neg (Bool.eq_false_iff.1 hv)]

theorem receiveEomHigh_of_valid (hv : isValidTotal s.cfg (dataSymbol s.rx.eom) s.rx.low t = true) :
    receiveEomHigh t s = enter .rxAckLow none s := by
  rw [receiveEomHigh, if_pos hv]

end Branches

/-! ### The start bit (O26, O27) -/

/-- Settles O26: both transitions enter RxStartLow, that of TxFreeTime with the transmit cursor reset. -/
theorem fallingEdgeStartsReception : Obligations.FallingEdgeStartsReception := by
  intro s t hadm
  have hb := begun_beginStep s
  constructor <;> intro hs <;> refine ⟨_, exec_evCapture_in hs hadm, ?_⟩
  · obtain ⟨hstate, hrx, htx, hl, hprod, hplain⟩ :=
      hb.entered (p := .rxStartLow) none (by decide) (by decide) rfl rfl
    exact ⟨hstate, hrx, htx, hl, hprod, hplain, sameRun_captureIn .idle t s⟩
  · obtain ⟨hstate, hrx, htx, hl, hprod, hplain⟩ :=
      (hb.mapTx resetTxCursor).entered (p := .rxStartLow) none (by decide) (by decide) rfl rfl
    exact ⟨hstate, hrx, htx, hl, hprod, hplain, sameRun_captureIn .txFreeTime t s⟩

/-- Settles O27: the three classes of a start-bit low and the two of its total, branch by branch. -/
theorem startBitIsValidated : Obligations.StartBitIsValidated := by
  intro s t hadm
  have hb := begun_beginStep s
  refine ⟨fun hs => step_of_capture hs hadm ⟨fun hv => ?_, fun hv hg => ?_, fun hv hg => ?_⟩,
    fun hs => step_of_capture hs hadm ⟨fun hv => ?_, fun hv => ?_⟩⟩
  · rw [captureIn, captureRxStartLow_of_valid s.beginStep hv]
    exact ((hb.mapRx _).mapRx _).entered none (by decide) (by decide) rfl rfl
  · rw [captureIn, captureRxStartLow_of_glitch s.beginStep hv hg]
    exact hb.entered none (by decide) (by decide) rfl rfl
  · rw [captureIn, captureRxStartLow_of_invalid s.beginStep hv hg]
    exact Begun.aborted ⟨rfl, rfl, rfl, rfl, rfl, rfl⟩ _ rfl rfl
  · rw [captureIn, captureRxStartHigh_of_valid s.beginStep hv]
    exact hb.entered none (by decide) (by decide) rfl rfl
  · rw [captureIn, captureRxStartHigh_of_invalid s.beginStep hv]
    exact hb.aborted _ rfl rfl

/-! ### The bits of a received frame (O28, O29, O30) -/

/-- The high states of a received bit await its falling edge, and their entry writes no context (R244). -/
theorem Begun.enteredRxHigh {s v : State} (h : Begun s v) {p : PState}
    (hp : p ∈ [PState.rxHeaderInitHigh, .rxHeaderDestHigh, .rxDataHigh, .rxEomHigh]) :
    (enter p none v).state = p ∧ (enter p none v).rx = v.rx ∧ (enter p none v).tx = v.tx ∧
      (enter p none v).laddr = s.laddr ∧
      Machine.producedEntry s (enter p none v) none .falling (some (toTick (capDataHigh s.cfg))) ∧
      Machine.plainEntry (enter p none v) := by
  rw [← h.cfg]
  cases p with
  | rxHeaderInitHigh | rxHeaderDestHigh | rxDataHigh | rxEomHigh => exact h.entered none (by decide) (by decide) rfl rfl
  | _ => exact absurd hp (by decide)

/-- The low states of a received bit await its rising edge, and their entry writes no context (R243). -/
theorem Begun.enteredRxLow {s v : State} (h : Begun s v) {p : PState}
    (hp : p ∈ [PState.rxHeaderInitLow, .rxHeaderDestLow, .rxDataLow, .rxEomLow]) :
    (enter p none v).state = p ∧ (enter p none v).rx = v.rx ∧ (enter p none v).tx = v.tx ∧
      (enter p none v).laddr = s.laddr ∧
      Machine.producedEntry s (enter p none v) none .rising (some (toTick (capDataLow s.cfg))) ∧
      Machine.plainEntry (enter p none v) := by
  rw [← h.cfg]
  cases p with
  | rxHeaderInitLow | rxHeaderDestLow | rxDataLow | rxEomLow => exact h.entered none (by decide) (by decide) rfl rfl
  | _ => exact absurd hp (by decide)

/-- The low of a header or data bit, for the high state `next` that follows it (R277 to R279). -/
theorem receiveBitLow_effect (s : State) (t : Tick) {next : PState}
    (hn : next ∈ [PState.rxHeaderInitHigh, .rxHeaderDestHigh, .rxDataHigh, .rxEomHigh]) :
    let u := receiveBitLow next t s.beginStep
    (classifyLow s.cfg t = .invalid → aborted .bitLowInvalid s u) ∧
      (classifyLow s.cfg t ≠ .invalid →
        u.state = next ∧ u.rx = { s.rx with bb := s.rx.bb.setBit (decide (classifyLow s.cfg t = .data1)), low := t } ∧
          u.tx = s.tx ∧ u.laddr = s.laddr ∧ producedEntry s u none .falling (some (toTick (capDataHigh s.cfg))) ∧
          plainEntry u) := by
  have hb := begun_beginStep s
  refine ⟨fun hc => ?_, fun hc => ?_⟩
  · rw [receiveBitLow_of_invalid s.beginStep next hc]
    exact hb.aborted _ rfl rfl
  · rw [receiveBitLow_of_valid s.beginStep next hc]
    exact (hb.mapRx _).enteredRxHigh hn

/-- Settles O28: the three low states differ in the high state that follows. -/
theorem receivedBitIsStored : Obligations.ReceivedBitIsStored := by
  intro s t p hadm hmem
  simp only [List.mem_cons, Prod.mk.injEq, List.not_mem_nil, or_false] at hmem
  rcases hmem with ⟨hs, rfl⟩ | ⟨hs, rfl⟩ | ⟨hs, rfl⟩ <;>
    exact step_of_capture hs hadm (receiveBitLow_effect s t (by decide))

/-- Settles O29. -/
theorem eomBitIsReceived : Obligations.EomBitIsReceived := by
  intro s t hadm
  have hb := begun_beginStep s
  refine ⟨fun hs => step_of_capture hs hadm ⟨fun hc => ?_, fun hc => ?_⟩,
    fun hs => step_of_capture hs hadm ⟨fun hv => ?_, fun hv => ?_⟩⟩
  · rw [captureIn, receiveEomLow_of_invalid s.beginStep hc]
    exact hb.aborted _ rfl rfl
  · rw [captureIn, receiveEomLow_of_valid s.beginStep hc]
    exact (hb.mapRx _).enteredRxHigh (by decide)
  · rw [captureIn, receiveEomHigh_of_invalid s.beginStep hv]
    exact hb.aborted _ rfl rfl
  · rw [captureIn, receiveEomHigh_of_valid s.beginStep hv]
    exact hb.entered none (by decide) (by decide) (enter_rx ..) (enter_tx ..)

/-- The high of a header or data bit, for the two low states that may follow it (R281 to R283). -/
theorem receiveBitHigh_effect (s : State) (t : Tick) (stop : BitVec 3) {last more : PState}
    (hl : last ∈ [PState.rxHeaderInitLow, .rxHeaderDestLow, .rxDataLow, .rxEomLow])
    (hm : more ∈ [PState.rxHeaderInitLow, .rxHeaderDestLow, .rxDataLow, .rxEomLow]) :
    let u := receiveBitHigh stop last more t s.beginStep
    (isValidTotal s.cfg (dataSymbol s.rx.bb.getBit) s.rx.low t = false → aborted .bitTotalInvalid s u) ∧
      (isValidTotal s.cfg (dataSymbol s.rx.bb.getBit) s.rx.low t = true →
        u.state = (if s.rx.bb.incBit.bit = stop then last else more) ∧ u.rx = { s.rx with bb := s.rx.bb.incBit } ∧
          u.tx = s.tx ∧ u.laddr = s.laddr ∧ producedEntry s u none .rising (some (toTick (capDataLow s.cfg))) ∧
          plainEntry u) := by
  have hb := begun_beginStep s
  refine ⟨fun hv => ?_, fun hv => ?_⟩
  · rw [receiveBitHigh_of_invalid s.beginStep stop last more hv]
    exact hb.aborted _ rfl rfl
  · rw [receiveBitHigh_of_valid s.beginStep stop last more hv]
    refine (hb.mapRx _).enteredRxLow ?_
    split <;> assumption

/-- Settles O30: the three high states differ in where the half or the byte ends and in what follows. -/
theorem receivedBitTotalIsChecked : Obligations.ReceivedBitTotalIsChecked := by
  intro s t stop last more hadm hmem
  simp only [List.mem_cons, Prod.mk.injEq, List.not_mem_nil, or_false] at hmem
  rcases hmem with ⟨hs, rfl, rfl, rfl⟩ | ⟨hs, rfl, rfl, rfl⟩ | ⟨hs, rfl, rfl, rfl⟩ <;>
    exact step_of_capture hs hadm (receiveBitHigh_effect s t _ (by decide) (by decide))

end Sys2Proof.Machine
end

section
/-! SUPPORT. PROOFS. State events (44_state_events.md), timeouts: the branches of each transition on a timeout, and the
statements read off them. -/

namespace Sys2Proof.Machine

/-! ### The ACK slot of a received byte (R250, R251, R305 to R307) -/

theorem isFinalByte_eq_false {rx : RxCtx} (heom : rx.eom = false) (hlt : rx.bb.byte.toNat < 16) :
    isFinalByte rx = false := by
  rw [← Bool.not_eq_true, isFinalByte_iff, heom]
  simp only [Bool.false_eq_true, false_or]
  omega

theorem timeoutRxAckVerify_of_nak (line : Level) (s : State) (hn : s.rx.bnack = true) :
    timeoutRxAckVerify line s = raiseAbort .bcastNak s := by
  rw [timeoutRxAckVerify, if_pos hn]

theorem timeoutRxAckVerify_of_ack (line : Level) (s : State) (hn : s.rx.bnack = false) :
    timeoutRxAckVerify line s = enter .rxAckFinish (some line) s := by
  rw [timeoutRxAckVerify, if_neg (Bool.eq_false_iff.1 hn)]

theorem timeoutRxAckFinish_of_final (line : Level) (s : State) (hf : isFinalByte s.rx = true) :
    timeoutRxAckFinish line s = enter .idle (some line) s := by
  rw [timeoutRxAckFinish, if_pos hf]

theorem timeoutRxAckFinish_of_more (line : Level) (s : State) (hf : isFinalByte s.rx = false) :
    timeoutRxAckFinish line s = raiseAbort .rxTimeout s := by
  rw [timeoutRxAckFinish, if_neg (Bool.eq_false_iff.1 hf)]

/-- The one entry that may notify: a final byte of a frame for the device delivers it (R251). -/
theorem enter_rxAckFinish_notify (line : Option Level) (s : State) :
    (enter .rxAckFinish line s).out.notify =
      if isFinalByte s.rx = true ∧ isForUs s.laddr s.rx.bb = true then some (.rxFrame s.rx.bb.byte s.rx.bb.snapshotBytes)
      else s.out.notify := by
  simp only [enter, entryAction, entryRxAckFinish]
  by_cases hf : isFinalByte s.rx = true
  · by_cases hu : isForUs s.laddr s.rx.bb = true
    · simp only [hf, hu, and_self, if_true]; rfl
    · simp only [hf, hu, and_false, if_true, if_false, Bool.false_eq_true]; rfl
  · simp only [hf, false_and, if_false, Bool.false_eq_true]; rfl

/-- The entry of RxAckFinish after a final byte: the end of the bit is awaited, and a frame for the device delivered. -/
theorem enter_rxAckFinish_of_final {s v : State} (h : Begun s v) (line : Option Level) (hf : isFinalByte v.rx = true) :
    producedEntry s (enter .rxAckFinish line v) (some released) .none (some (toTick (highNom v.cfg .data0))) ∧
      (enter .rxAckFinish line v).out.notify =
        if v.rx.bb.dest.toNat = v.laddr.toNat ∨ v.rx.bb.dest.toNat = 15 then
          some (.rxFrame v.rx.bb.byte v.rx.bb.snapshotBytes)
        else none := by
  have hrow := h.producedEntry .rxAckFinish line (absurd · (by decide))
  have harm : tableArm v .rxAckFinish = (.none, some (toTick (highNom v.cfg .data0))) :=
    if_pos ((isFinalByte_iff _).1 hf)
  rw [harm] at hrow
  refine ⟨hrow, ?_⟩
  rw [enter_rxAckFinish_notify, h.out, noOut_notify]
  simp only [hf, true_and, isForUs_iff]

/-- The entry of RxAckFinish after any other byte: the next byte is awaited. -/
theorem enter_rxAckFinish_of_more {s v : State} (h : Begun s v) (line : Option Level) (hf : isFinalByte v.rx = false) :
    producedEntry s (enter .rxAckFinish line v) (some released) .falling (some (toTick (capDataHigh v.cfg))) ∧
      (enter .rxAckFinish line v).out.notify = none := by
  have hrow := h.producedEntry .rxAckFinish line (absurd · (by decide))
  have hnot : ¬ (v.rx.eom = true ∨ maxLen ≤ v.rx.bb.byte.toNat) := mt (isFinalByte_iff _).2 (Bool.eq_false_iff.1 hf)
  have harm : tableArm v .rxAckFinish = (.falling, some (longestDataHigh v.cfg)) := if_neg hnot
  rw [harm] at hrow
  refine ⟨hrow, ?_⟩
  rw [enter_rxAckFinish_notify, h.out, hf, if_neg (fun hc => Bool.false_ne_true hc.1), noOut_notify]

/-- Settles O31: the sample, the verdict, and the end of the slot, each by its transition. -/
theorem ackSlotOfReceivedByte : Obligations.AckSlotOfReceivedByte := by
  intro s harm
  have hb := begun_beginStep s
  refine ⟨fun l hs => step_of_timeout hs harm ?_, fun l hs => step_of_timeout hs harm ⟨fun hn => ?_, fun hn => ?_⟩,
    fun t hs hadm => step_of_capture hs hadm (hb.enteredRxLow (by decide)),
    fun l hs => step_of_timeout hs harm ⟨fun hf => ?_, fun heom hlt => ?_⟩⟩
  · have hflag : (enter .rxAckVerify (some l) s.beginStep).rx =
        { s.rx with bnack := decide (s.rx.bb.dest.toNat = 15 ∧ l = pulledLow) } := by
      simp only [enter_rx, bnackFlag_some, beginStep_rx]
    exact hb.entered (some l) (by decide) (by decide) hflag rfl
  · rw [timeoutIn, timeoutRxAckVerify_of_nak l s.beginStep hn]
    exact hb.aborted _ rfl rfl
  · rw [timeoutIn, timeoutRxAckVerify_of_ack l s.beginStep hn]
    refine ⟨enter_state_of _ _ _ (absurd · (by decide)), enter_rx .., enter_tx .., enter_laddr .., enter_abortCause ..,
      enter_out_result .., fun hf => ?_, fun heom hlt => ?_⟩
    · exact enter_rxAckFinish_of_final hb (some l) ((isFinalByte_iff _).2 hf)
    · exact enter_rxAckFinish_of_more hb (some l) (isFinalByte_eq_false heom hlt)
  · rw [timeoutIn, timeoutRxAckFinish_of_final l s.beginStep ((isFinalByte_iff _).2 hf)]
    exact ⟨hb.enteredIdle _ rfl rfl, hb.plainEntry _ (by decide)⟩
  · rw [timeoutIn, timeoutRxAckFinish_of_more l s.beginStep (isFinalByte_eq_false heom hlt)]
    exact hb.aborted _ rfl rfl

/-! ### The quiet period and the fallback timeouts of reception (R304, R308) -/

/-- The nine timing states whose fallback timeout aborts at once (R308). -/
theorem timeoutIn_of_rxTiming {p : PState} (l : Level) (s : State)
    (hp : p ∈ [PState.rxStartHigh, .rxHeaderInitLow, .rxHeaderInitHigh, .rxHeaderDestLow, .rxHeaderDestHigh, .rxEomLow,
      .rxEomHigh, .rxDataLow, .rxDataHigh]) : timeoutIn p l s = raiseAbort .rxTimeout s := by
  cases p with
  | rxStartHigh | rxHeaderInitLow | rxHeaderInitHigh | rxHeaderDestLow | rxHeaderDestHigh | rxEomLow | rxEomHigh
  | rxDataLow | rxDataHigh => rfl
  | _ => exact absurd hp (by decide)

/-- Settles O32. -/
theorem receiveTimeoutsReturnToIdle : Obligations.ReceiveTimeoutsReturnToIdle := by
  intro s l harm
  have hb := begun_beginStep s
  refine ⟨fun hs => step_of_timeout hs harm ⟨hb.enteredIdle _ rfl rfl, hb.plainEntry _ (by decide)⟩,
    fun hs => step_of_timeout hs harm ?_, fun hmem => step_of_timeout rfl harm ?_⟩
  · exact Begun.aborted ⟨rfl, rfl, rfl, rfl, rfl, rfl⟩ _ rfl rfl
  · rw [timeoutIn_of_rxTiming l s.beginStep hmem]
    exact hb.aborted _ rfl rfl

/-! ### The timeouts that drive a frame out (R290 to R302) -/

/-- The end of a transmitted bit: the cursor advances, and the low of the next bit is driven (R294, R296, R298). -/
theorem transmitBitHigh_effect (s : State) (l : Level) {stop : BitVec 3} {last more p : PState}
    (hl : last ∈ [PState.txHeaderInitLow, .txHeaderDestLow, .txDataLow, .txEomLow])
    (hm : more ∈ [PState.txHeaderInitLow, .txHeaderDestLow, .txDataLow, .txEomLow])
    (hp : p = if s.tx.bb.incBit.bit = stop then last else more) :
    let u := transmitBitHigh stop last more l s.beginStep
    u.state = p ∧ u.rx = s.rx ∧ u.tx = { s.tx with bb := s.tx.bb.incBit } ∧ u.laddr = s.laddr ∧
      producedEntry s u (some pulledLow) .none (tableArm { s with tx := { s.tx with bb := s.tx.bb.incBit } } p).2 ∧
      plainEntry u := by
  have hlow : p ∈ [PState.txHeaderInitLow, .txHeaderDestLow, .txDataLow, .txEomLow] := by
    rw [hp]
    split <;> assumption
  have hmoved := (begun_beginStep s).mapTx fun tx => { tx with bb := tx.bb.incBit }
  have hu : transmitBitHigh stop last more l s.beginStep =
      enter p (some l) (s.beginStep.mapTx fun tx => { tx with bb := tx.bb.incBit }) := by
    rw [hp]; rfl
  rw [hu]
  cases p with
  | txHeaderInitLow | txHeaderDestLow | txDataLow | txEomLow =>
    exact hmoved.entered (some l) (by decide) (by decide) rfl rfl
  | _ => exact absurd hlow (by decide)

/-- Settles O33: every transition but those of the high phases enters its successor with nothing written before. -/
theorem transmitTimeoutsDriveTheFrame : Obligations.TransmitTimeoutsDriveTheFrame := by
  intro s l harm
  have hb := begun_beginStep s
  refine ⟨fun p hmem => ?_, fun stop last more p hmem hp => ?_,
    fun hs => step_of_timeout hs harm (hb.entered (some l) (by decide) (by decide) rfl rfl),
    fun hs => step_of_timeout hs harm (hb.entered (some l) (by decide) (by decide) rfl rfl),
    fun hs => step_of_timeout hs harm (hb.entered (some l) (by decide) (by decide) rfl rfl),
    fun hs => step_of_timeout hs harm (hb.entered (some l) (by decide) (by decide) rfl ?_)⟩
  · simp only [List.mem_cons, Prod.mk.injEq, List.not_mem_nil, or_false] at hmem
    rcases hmem with ⟨hs, rfl⟩ | ⟨hs, rfl⟩ | ⟨hs, rfl⟩ | ⟨hs, rfl⟩ | ⟨hs, rfl⟩ | ⟨hs, rfl⟩ <;>
      exact step_of_timeout hs harm (hb.entered (some l) (by decide) (by decide) rfl rfl)
  · simp only [List.mem_cons, Prod.mk.injEq, List.not_mem_nil, or_false] at hmem
    rcases hmem with ⟨hs, rfl, rfl, rfl⟩ | ⟨hs, rfl, rfl, rfl⟩ | ⟨hs, rfl, rfl, rfl⟩ <;>
      exact step_of_timeout hs harm (transmitBitHigh_effect s l (by decide) (by decide) hp)
  · simp only [enter_tx, ackFlag_some, beginStep_tx]

/-! ### The end of the ACK bit of a transmitted byte (R303) -/

section AckVerdict

variable (l : Level) (s : State)

theorem timeoutTxAckVerify_of_more (ha : s.tx.ack = true) (he : s.tx.bb.isEom s.tx.len = false) :
    timeoutTxAckVerify l s = enter .txDataLow (some l) s := by
  rw [timeoutTxAckVerify, if_pos ha, if_neg (Bool.eq_false_iff.1 he)]

theorem timeoutTxAckVerify_of_last (ha : s.tx.ack = true) (he : s.tx.bb.isEom s.tx.len = true) :
    timeoutTxAckVerify l s = finishSend .sendOk l s := by
  rw [timeoutTxAckVerify, if_pos ha, if_pos he]

theorem timeoutTxAckVerify_of_resend (ha : s.tx.ack = false) (hr : s.tx.resends.toNat < 5) :
    timeoutTxAckVerify l s = enter .txFreeTime (some l) (s.mapTx fun tx => { tx with resends := tx.resends + 1 }) := by
  rw [timeoutTxAckVerify, if_neg (Bool.eq_false_iff.1 ha), if_pos hr]

theorem timeoutTxAckVerify_of_failed (ha : s.tx.ack = false) (hr : 5 ≤ s.tx.resends.toNat) :
    timeoutTxAckVerify l s = finishSend .sendFailed l s := by
  rw [timeoutTxAckVerify, if_neg (Bool.eq_false_iff.1 ha), if_neg (not_lt.2 hr)]

/-- Whatever the verdict, nothing is aborted or replied. -/
theorem timeoutTxAckVerify_silent :
    (timeoutTxAckVerify l s).abortCause = s.abortCause ∧ (timeoutTxAckVerify l s).out.result = s.out.result := by
  unfold timeoutTxAckVerify finishSend
  split <;> split <;> exact ⟨enter_abortCause .., enter_out_result ..⟩

/-- A finished transmission is notified, and Idle entered with the frame no longer pending. -/
theorem finishSend_effect (n : Notif) :
    (finishSend n l s.beginStep).out.notify = some n ∧
      enteredIdle { s with tx := { s.tx with len := 0, resends := 0 } } (finishSend n l s.beginStep) :=
  ⟨enter_out_notify _ _ _ (by decide), enteredIdle_enter _ rfl rfl rfl rfl⟩

end AckVerdict

/-- A resend below the limit is counted without a wrap. -/
theorem resends_succ_toNat {r : BitVec 3} (h : r.toNat < 5) : (r + 1).toNat = r.toNat + 1 := by
  have hone : (1 : BitVec 3).toNat = 1 := rfl
  rw [BitVec.toNat_add, hone]
  omega

theorem selectTier_of_resend {r : BitVec 3} (h : r.toNat < 5) (present : Bool) :
    selectTier (r + 1) present = .resend := by
  rw [selectTier, resends_succ_toNat h, if_pos (Nat.succ_pos _)]

/-- Settles O34: one branch of R303 for each verdict. -/
theorem ackDecidesTheTransmission : Obligations.AckDecidesTheTransmission := by
  intro s l harm hs
  have hb := begun_beginStep s
  obtain ⟨hcause, hresult⟩ := timeoutTxAckVerify_silent l s.beginStep
  refine step_of_timeout hs harm ⟨hcause, hresult, timeoutIn_laddr .., fun ha he => ?_, fun ha he => ?_, fun ha hr => ?_,
    fun ha hr => ?_⟩
  · rw [timeoutIn, timeoutTxAckVerify_of_more l s.beginStep ha he]
    obtain ⟨hstate, hrx, htx, -, hprod, -, hnotify, -⟩ :=
      hb.entered (p := .txDataLow) (some l) (by decide) (by decide) rfl rfl
    exact ⟨hstate, hrx, htx, hnotify, hprod⟩
  · rw [timeoutIn, timeoutTxAckVerify_of_last l s.beginStep ha he]
    exact finishSend_effect l s _
  · rw [timeoutIn, timeoutTxAckVerify_of_resend l s.beginStep ha hr, ← selectTier_of_resend hr s.tx.pi]
    obtain ⟨hstate, hrx, htx, -, hprod, -, hnotify, -⟩ :=
      (hb.mapTx fun tx => { tx with resends := tx.resends + 1 }).entered (p := .txFreeTime) (some l) (by decide)
        (by decide) rfl rfl
    exact ⟨hstate, hrx, htx, hnotify, hprod⟩
  · rw [timeoutIn, timeoutTxAckVerify_of_failed l s.beginStep ha hr]
    exact finishSend_effect l s _

end Sys2Proof.Machine
end

section
/-! SUPPORT. PROOFS. State events (44_state_events.md), the two columns of R310 and the table of the commands (R327): an
armed event always enters a target of its column, and each command has one law per row. -/

namespace Sys2Proof.Machine

/-! ### An armed event enters a target (R310) -/

/-- The state reached by entering a target; no column names Disabled, whose entry would drop the frame. -/
theorem Enters.reachesOneOf {targets : List PState} {s t : State} (h : Enters targets s t) (hd : .disabled ∉ targets) :
    reachesOneOf targets t := by
  obtain ⟨q, hq, line, u, rfl, -⟩ := h
  have hne : q ≠ .disabled := fun h0 => hd (h0 ▸ hq)
  refine ⟨q, hq, ?_⟩
  rw [(enter_tx_len q line u hne).1, enter_state]

theorem disabled_not_mem_captureTargets (p : PState) : .disabled ∉ captureTargets p := by
  cases p <;> decide

theorem disabled_not_mem_timeoutTargets (p : PState) : .disabled ∉ timeoutTargets p := by
  cases p <;> decide

section Armed

variable {s : State} (hb : buffersWf s) (hl : registersLegal s) {p : PState}
include hb hl

/-- Where the capture column names a successor, the transition does not leave the state as it is. -/
theorem captureIn_enters_of_ne_nil (t : Tick) (hp : captureTargets p ≠ []) :
    Enters (captureTargets p) s (captureIn p t s) := by
  cases p with
  | idle | rxAckFinish => exact enters_of (by decide) none (handsOn_self hb hl _)
  | txFreeTime => exact captureTxFreeTime_enters hb hl
  | rxStartLow => exact captureRxStartLow_enters hb hl t
  | rxStartHigh => exact captureRxStartHigh_enters hb hl t
  | rxHeaderInitLow | rxHeaderDestLow | rxDataLow => exact receiveBitLow_enters hb hl t (by decide) (by decide)
  | rxHeaderInitHigh | rxHeaderDestHigh | rxDataHigh => exact receiveBitHigh_enters hb hl t
  | rxEomLow => exact receiveEomLow_enters hb hl t
  | rxEomHigh => exact receiveEomHigh_enters hb hl t
  | _ => exact absurd rfl hp

/-- Where the timeout column names a successor, the transition does not leave the state as it is. -/
theorem timeoutIn_enters_of_ne_nil (l : Level) (hp : timeoutTargets p ≠ []) :
    Enters (timeoutTargets p) s (timeoutIn p l s) := by
  cases p with
  | disabled | idle => exact absurd rfl hp
  | txHeaderInitHigh | txHeaderDestHigh | txDataHigh => exact transmitBitHigh_enters hb hl l
  | txAckVerify => exact timeoutTxAckVerify_enters hb hl l
  | rxAckVerify => exact timeoutRxAckVerify_enters hb hl l
  | rxAckFinish => exact timeoutRxAckFinish_enters hb hl l
  | rxStartLow => exact raiseAbort_enters (by decide) _ (handsOn_of_eq hb hl _ rfl rfl rfl rfl)
  | rxStartHigh | rxHeaderInitLow | rxHeaderInitHigh | rxHeaderDestLow | rxHeaderDestHigh | rxEomLow | rxEomHigh
  | rxDataLow | rxDataHigh => exact raiseAbort_enters (by decide) _ (handsOn_self hb hl _)
  | _ => exact enters_of (by decide) (some l) (handsOn_self hb hl _)

end Armed

/-- An edge is armed only in the states of the capture column (R223). -/
theorem BaseInv.captureTargets_ne_nil {s : State} (h : BaseInv s) (hedge : s.armEdge ≠ .none) :
    captureTargets s.state ≠ [] := by
  obtain ⟨-, -, -, -, -, -, -, harm, -⟩ := h
  cases hs : s.state with
  | disabled | txStartLow | txStartHigh | txHeaderInitLow | txHeaderInitHigh | txHeaderDestLow | txHeaderDestHigh
  | txDataLow | txDataHigh | txEomLow | txEomHigh | txAckLow | txAckHigh | txAckVerify | rxDebounce | rxAckLow
  | rxAckVerify =>
    rw [hs] at harm
    exact absurd (harm (by decide)) hedge
  | _ => decide

/-- A timeout is armed only in the states of the timeout column (R309). -/
theorem BaseInv.timeoutTargets_ne_nil {s : State} (h : BaseInv s) (htv : s.armTv = true) :
    timeoutTargets s.state ≠ [] := by
  obtain ⟨-, -, -, -, -, harm, -⟩ := h
  cases hs : s.state with
  | disabled | idle =>
    rw [hs, htv] at harm
    cases harm
  | _ => decide

theorem BaseInv.capture_reaches {s : State} (h : BaseInv s) {t : Tick} (hadm : contractAdmits s (.evCapture t) = true) :
    reachesOneOf (captureTargets s.state) (captureIn s.state t s.beginStep) := by
  have hb := baseInv_beginStep h
  simp only [contractAdmits, Bool.and_eq_true, decide_eq_true_eq] at hadm
  exact (captureIn_enters_of_ne_nil hb.buffers hb.legal t (h.captureTargets_ne_nil hadm.1)).reachesOneOf
    (disabled_not_mem_captureTargets _)

theorem BaseInv.timeout_reaches {s : State} (h : BaseInv s) (l : Level) (htv : s.armTv = true) :
    reachesOneOf (timeoutTargets s.state) (timeoutIn s.state l s.beginStep) := by
  have hb := baseInv_beginStep h
  exact (timeoutIn_enters_of_ne_nil hb.buffers hb.legal l (h.timeoutTargets_ne_nil htv)).reachesOneOf
    (disabled_not_mem_timeoutTargets _)

/-! ### The commands, one law per row (R320 to R323) -/

section Commands

variable {s : State} {n : BitVec 5} (d : List Byte)

theorem exec_cmdEnable_of_disabled (hs : s.state = .disabled) :
    exec .cmdEnable s = .next (enter .idle none s.beginStep) := by
  rw [exec, execCmdEnable, if_pos hs]

theorem exec_cmdEnable_of_enabled (hs : s.state ≠ .disabled) : exec .cmdEnable s = .next s.beginStep := by
  rw [exec, execCmdEnable, if_neg hs]

theorem exec_cmdSubmit_of_disabled (hs : s.state = .disabled) :
    exec (.cmdSubmit n d) s = .next (s.beginStep.reply .disabled) := by
  rw [exec, execCmdSubmit, if_pos hs]

/-- The lengths CMD_SUBMIT takes are 1 to 16. -/
theorem submit_invalid_iff (n : BitVec 5) : (n = 0 ∨ n.toNat > maxLen) ↔ (n.toNat = 0 ∨ 16 < n.toNat) :=
  or_congr_left (BitVec.toNat_inj (y := (0 : BitVec 5))).symm

theorem exec_cmdSubmit_of_invalid (hs : s.state ≠ .disabled) (hn : n.toNat = 0 ∨ 16 < n.toNat) :
    exec (.cmdSubmit n d) s = .next (s.beginStep.reply .invalid) := by
  rw [exec, execCmdSubmit, if_neg hs, if_pos ((submit_invalid_iff n).2 hn)]

section ValidLength

variable (hpos : 1 ≤ n.toNat) (hle : n.toNat ≤ 16)
include hpos hle

theorem submit_valid : ¬ (n = 0 ∨ n.toNat > maxLen) := by
  rw [submit_invalid_iff]
  omega

theorem exec_cmdSubmit_of_pending (hs : s.state ≠ .disabled) (hlen : s.tx.len ≠ 0) :
    exec (.cmdSubmit n d) s = .next (s.beginStep.reply .busy) := by
  rw [exec, execCmdSubmit, if_neg hs, if_neg (submit_valid hpos hle), if_pos hlen]

theorem exec_cmdSubmit_of_idle (hs : s.state = .idle) (hlen : s.tx.len = 0) :
    exec (.cmdSubmit n d) s = .next (enter .txFreeTime none (acceptFrame n d s.beginStep)) := by
  have hd : s.state ≠ .disabled := by rw [hs]; decide
  rw [exec, execCmdSubmit, if_neg hd, if_neg (submit_valid hpos hle), if_neg (not_not.2 hlen), if_pos hs]

theorem exec_cmdSubmit_of_deferred (hd : s.state ≠ .disabled) (hi : s.state ≠ .idle) (hlen : s.tx.len = 0) :
    exec (.cmdSubmit n d) s = .next (acceptFrame n d s.beginStep) := by
  rw [exec, execCmdSubmit, if_neg hd, if_neg (submit_valid hpos hle), if_neg (not_not.2 hlen), if_neg hi]

end ValidLength

end Commands

/-! ### The table (O25) -/

/-- From Disabled no frame is pending, so CMD_ENABLE stays in Idle. -/
theorem cmdEnable_follows {s : State} (h : ProtoInv s) :
    ∃ u, exec .cmdEnable s = .next u ∧ u.out.result = none ∧
      u.state = if s.state = .disabled then .idle else s.state := by
  by_cases hs : s.state = .disabled
  · obtain ⟨-, hcleared, -⟩ := h
    have hlen : s.tx.len = 0 := by rw [(hcleared hs).2]; rfl
    refine ⟨_, exec_cmdEnable_of_disabled hs, enter_out_result .., ?_⟩
    rw [if_pos hs, enter_state_of .idle none s.beginStep fun _ => hlen]
  · exact ⟨_, exec_cmdEnable_of_enabled hs, rfl, (if_neg hs).symm⟩

theorem cmdSetAddr_follows (s : State) (a : BitVec 8) :
    ∃ u, exec (.cmdSetAddr a) s = .next u ∧ u.state = s.state ∧
      u.out.result = some (if a.toNat ≤ 15 ∨ a.toNat = 255 then .ok else .rejected) := by
  refine ⟨_, rfl, ?_⟩
  simp only [legalAddr_iff]
  split <;> exact ⟨rfl, rfl⟩

/-- CMD_SUBMIT with a legal length: accepted in Idle, BUSY in a transmit state, and in a receive state as a frame is
pending or not. -/
theorem cmdSubmit_valid_follows {s u : State} (h : BaseInv s) {n : BitVec 5} {d : List Byte} (hpos : 1 ≤ n.toNat)
    (hle : n.toNat ≤ 16) (hu : exec (.cmdSubmit n d) s = .next u) :
    (s.state = .idle → u.out.result = some .accepted ∧ u.state = .txFreeTime) ∧
      (s.state.isTx = true → u.out.result = some .busy ∧ u.state = s.state) ∧
      (s.state.isRx = true → u.out.result = some (if s.tx.len = 0 then .accepted else .busy) ∧ u.state = s.state) := by
  refine ⟨fun hs => ?_, fun htx => ?_, fun hrx => ?_⟩
  · obtain ⟨-, -, -, hidle, -⟩ := h
    rw [exec_cmdSubmit_of_idle d hpos hle hs (hidle hs)] at hu
    cases hu
    exact ⟨rfl, rfl⟩
  · have hd : s.state ≠ .disabled := fun hs => by rw [hs] at htx; cases htx
    rw [exec_cmdSubmit_of_pending d hpos hle hd (h.pending htx)] at hu
    cases hu
    exact ⟨rfl, rfl⟩
  · have hd : s.state ≠ .disabled := fun hs => by rw [hs] at hrx; cases hrx
    have hi : s.state ≠ .idle := fun hs => by rw [hs] at hrx; cases hrx
    by_cases hlen : s.tx.len = 0
    · rw [exec_cmdSubmit_of_deferred d hpos hle hd hi hlen] at hu
      cases hu
      exact ⟨by rw [if_pos hlen]; rfl, rfl⟩
    · rw [exec_cmdSubmit_of_pending d hpos hle hd hlen] at hu
      cases hu
      exact ⟨by rw [if_neg hlen]; rfl, rfl⟩

/-- Settles O25: the events by their columns, the commands by their rows. -/
theorem transitionsFollowTheTable : Obligations.TransitionsFollowTheTable := by
  intro s h
  refine ⟨fun t hadm => ⟨_, exec_evCapture_of_admits hadm, h.capture_reaches hadm⟩,
    fun l hadm => ⟨_, exec_evTimeout_of_armed hadm, h.timeout_reaches l hadm⟩, cmdEnable_follows,
    ⟨_, rfl, rfl, rfl, rfl⟩, cmdSetAddr_follows s, fun n d => ?_⟩
  obtain ⟨u, hu⟩ := exec_next (.cmdSubmit n d) s
  refine ⟨u, hu, fun hs => ?_, fun hs hn => ?_, fun hpos hle => cmdSubmit_valid_follows h hpos hle hu⟩
  · rw [exec_cmdSubmit_of_disabled d hs] at hu
    cases hu
    exact ⟨rfl, hs⟩
  · rw [exec_cmdSubmit_of_invalid d hs hn] at hu
    cases hu
    exact ⟨rfl, rfl⟩

end Sys2Proof.Machine
end

section
/-! SUPPORT. PROOFS. State events (44_state_events.md), whole frames sent: the phases of R118 to R121 that a transmit state
has still to drive. A timeout drives the first of them, so their number counts the timeouts to the end of the attempt. -/

namespace Sys2Proof.Machine

/-! ### The phases of a frame from one of its bits on (R71, R121) -/

/-- The phases of byte `k` of a frame and of the bytes after it. -/
def phasesFromByte (c : Cfg) (bytes : List Byte) (k : Nat) : List Phase :=
  (List.range' k (bytes.length - k)).flatMap (bytePhases c bytes)

/-- The phases of a frame from bit `i` of byte `k` on; bit 8 is the EOM bit. -/
def phasesFromBit (c : Cfg) (bytes : List Byte) (k i : Nat) : List Phase :=
  ((byteSlots bytes k).drop i).flatMap (fun b => symbolPhases c (dataSymbol b)) ++
    (ackPhases c ++ phasesFromByte c bytes (k + 1))

section Phases

variable (c : Cfg) (bytes : List Byte) {k i : Nat}

theorem framePhases_eq : framePhases c bytes = symbolPhases c .start ++ phasesFromByte c bytes 0 := by
  rw [framePhases, phasesFromByte, List.range_eq_range', Nat.sub_zero]

theorem phasesFromByte_of_lt (hk : k < bytes.length) : phasesFromByte c bytes k = phasesFromBit c bytes k 0 := by
  obtain ⟨m, hm⟩ : ∃ m, bytes.length - k = m + 1 := ⟨bytes.length - k - 1, by omega⟩
  have hrest : bytes.length - (k + 1) = m := by omega
  rw [phasesFromBit, phasesFromByte, phasesFromByte, hm, hrest, List.range'_succ, List.flatMap_cons, List.drop_zero,
    bytePhases, List.append_assoc]

theorem byteSlots_drop_of_lt (hi : i < 8) :
    (byteSlots bytes k).drop i = wireBit (bytes.getD k 0) (BitVec.ofNat 3 i) :: (byteSlots bytes k).drop (i + 1) := by
  have hlen : i < (byteSlots bytes k).length := by
    simp only [byteSlots, byteBits, List.length_append, List.length_map, List.length_range, List.length_singleton]
    omega
  rw [List.drop_eq_getElem_cons hlen]
  simp [byteSlots, byteBits, List.getElem_append_left, hi]

theorem phasesFromBit_of_lt (hi : i < 8) :
    phasesFromBit c bytes k i =
      symbolPhases c (dataSymbol (wireBit (bytes.getD k 0) (BitVec.ofNat 3 i))) ++ phasesFromBit c bytes k (i + 1) := by
  rw [phasesFromBit, byteSlots_drop_of_lt bytes hi, List.flatMap_cons, List.append_assoc, phasesFromBit]

/-- After the eight bits of a byte come its EOM bit and its ACK bit. -/
theorem phasesFromBit_eight :
    phasesFromBit c bytes k 8 =
      symbolPhases c (dataSymbol (decide (k + 1 = bytes.length))) ++ (ackPhases c ++ phasesFromByte c bytes (k + 1)) := by
  have hdrop : (byteSlots bytes k).drop 8 = [decide (k + 1 = bytes.length)] := rfl
  rw [phasesFromBit, hdrop, List.flatMap_singleton]

theorem length_phasesFromByte : (phasesFromByte c bytes k).length = 21 * (bytes.length - k) := by
  have hbyte : ∀ j, (bytePhases c bytes j).length = 21 := fun _ => rfl
  simp only [phasesFromByte, List.length_flatMap, hbyte, List.map_const', List.length_range', List.sum_replicate,
    smul_eq_mul, Nat.mul_comm]

theorem length_phasesFromBit :
    (phasesFromBit c bytes k i).length = 2 * (9 - i) + 3 + 21 * (bytes.length - (k + 1)) := by
  have hbit : ∀ b, (symbolPhases c (dataSymbol b)).length = 2 := fun _ => rfl
  have hslots : (byteSlots bytes k).length = 9 := rfl
  have hack : (ackPhases c).length = 3 := rfl
  simp only [phasesFromBit, List.length_append, List.length_flatMap, hbit, List.map_const', List.length_drop, hslots,
    List.sum_replicate, smul_eq_mul, hack, length_phasesFromByte]
  omega

end Phases

/-! ### The phases a transmit state has still to drive -/

/-- The bytes of the pending frame. -/
def frameBytes (tx : TxCtx) : List Byte := (List.range tx.len.toNat).map (memRead tx.bb.buf)

@[simp] theorem length_frameBytes (tx : TxCtx) : (frameBytes tx).length = tx.len.toNat := by
  rw [frameBytes, List.length_map, List.length_range]

theorem frameBytes_getD {tx : TxCtx} {k : Nat} (hk : k < tx.len.toNat) :
    (frameBytes tx).getD k 0 = memRead tx.bb.buf k := by
  simp [frameBytes, List.getD_eq_getElem?_getD, hk]

theorem frameBytes_of_eq {tx tx' : TxCtx} (hlen : tx'.len = tx.len) (hbuf : tx'.bb.buf = tx.bb.buf) :
    frameBytes tx' = frameBytes tx := by
  rw [frameBytes, frameBytes, hlen, hbuf]

/-- The phases of the frame that come after the one a state is driving. In the low and the high phase of a bit the cursor is
on that bit; from the EOM bit to the ACK bit it is on the byte after. -/
def laterPhases (c : Cfg) (tx : TxCtx) : PState → List Phase
  | .txFreeTime => framePhases c (frameBytes tx)
  | .txStartLow => (some released, some (highDuration c .start)) :: phasesFromByte c (frameBytes tx) 0
  | .txStartHigh => phasesFromByte c (frameBytes tx) 0
  | .txHeaderInitLow | .txHeaderDestLow | .txDataLow =>
    (some released, some (highDuration c (dataSymbol tx.bb.getBit))) ::
      phasesFromBit c (frameBytes tx) tx.bb.byte.toNat (tx.bb.bit.toNat + 1)
  | .txHeaderInitHigh | .txHeaderDestHigh | .txDataHigh =>
    phasesFromBit c (frameBytes tx) tx.bb.byte.toNat (tx.bb.bit.toNat + 1)
  | .txEomLow =>
    (some released, some (highDuration c (dataSymbol (tx.bb.isEom tx.len)))) ::
      (ackPhases c ++ phasesFromByte c (frameBytes tx) tx.bb.byte.toNat)
  | .txEomHigh => ackPhases c ++ phasesFromByte c (frameBytes tx) tx.bb.byte.toNat
  | .txAckLow => (ackPhases c).drop 1 ++ phasesFromByte c (frameBytes tx) tx.bb.byte.toNat
  | .txAckHigh => (ackPhases c).drop 2 ++ phasesFromByte c (frameBytes tx) tx.bb.byte.toNat
  | .txAckVerify => phasesFromByte c (frameBytes tx) tx.bb.byte.toNat
  | _ => []

/-- The phases of the pending frame still to be driven. -/
def phasesLeft (s : State) : List Phase := laterPhases s.cfg s.tx s.state

theorem phasesLeft_of_state {s : State} {p : PState} (hs : s.state = p) : phasesLeft s = laterPhases s.cfg s.tx p := by
  rw [phasesLeft, hs]

section OneBit

variable (c : Cfg) {tx : TxCtx} (hlt : tx.bb.byte.toNat < tx.len.toNat) (hle : tx.len.toNat ≤ 16)
include hlt hle

/-- The bit at the cursor is the frame's. -/
theorem wireBit_frameBytes :
    wireBit ((frameBytes tx).getD tx.bb.byte.toNat 0) (BitVec.ofNat 3 tx.bb.bit.toNat) = tx.bb.getBit := by
  rw [frameBytes_getD hlt, getBit_of_lt (hlt.trans_le hle), BitVec.ofNat_toNat, BitVec.setWidth_eq]

/-- The two phases of the bit at the cursor, and those after it. -/
theorem phasesFromBit_cursor :
    phasesFromBit c (frameBytes tx) tx.bb.byte.toNat tx.bb.bit.toNat =
      (some pulledLow, some (lowDuration c (dataSymbol tx.bb.getBit))) ::
        (some released, some (highDuration c (dataSymbol tx.bb.getBit))) ::
          phasesFromBit c (frameBytes tx) tx.bb.byte.toNat (tx.bb.bit.toNat + 1) := by
  rw [phasesFromBit_of_lt c (frameBytes tx) tx.bb.bit.isLt, wireBit_frameBytes hlt hle]
  rfl

/-- A byte of the frame begins with the bit at the cursor. -/
theorem phasesFromByte_cursor (hbit : tx.bb.bit = 0) :
    phasesFromByte c (frameBytes tx) tx.bb.byte.toNat =
      (some pulledLow, some (lowDuration c (dataSymbol tx.bb.getBit))) ::
        (some released, some (highDuration c (dataSymbol tx.bb.getBit))) ::
          phasesFromBit c (frameBytes tx) tx.bb.byte.toNat (tx.bb.bit.toNat + 1) := by
  rw [← phasesFromBit_cursor c hlt hle, hbit]
  exact phasesFromByte_of_lt c _ (by rwa [length_frameBytes])

end OneBit

/-- After the high of a bit the cursor moves: to the next bit of the byte, or past the byte, where the EOM bit follows. -/
theorem phasesFromBit_incBit {s : State} (hlt : s.tx.bb.byte.toNat < s.tx.len.toNat) (hle : s.tx.len.toNat ≤ 16) {p : PState}
    (hp : (s.tx.bb.incBit.bit = 0 ∧ p = .txEomLow) ∨
      (s.tx.bb.incBit.bit ≠ 0 ∧ p ∈ [PState.txHeaderInitLow, .txHeaderDestLow, .txDataLow])) :
    phasesFromBit s.cfg (frameBytes s.tx) s.tx.bb.byte.toNat (s.tx.bb.bit.toNat + 1) =
      (some pulledLow, (tableArm { s with tx := { s.tx with bb := s.tx.bb.incBit } } p).2) ::
        laterPhases s.cfg { s.tx with bb := s.tx.bb.incBit } p := by
  have hframe : frameBytes { s.tx with bb := s.tx.bb.incBit } = frameBytes s.tx :=
    frameBytes_of_eq rfl (incBit_buf s.tx.bb)
  rcases incBit_wraps_or_rises (hlt.trans_le hle) with ⟨hwrap, hnext⟩ | ⟨hne, hkeep, -⟩
  · obtain ⟨-, rfl⟩ := hp.resolve_right fun hc => hc.1 hwrap
    have hlast : s.tx.bb.bit.toNat + 1 = 8 := by
      by_contra h7
      obtain ⟨hinc, -⟩ := incBit_of_lt (b := s.tx.bb) (hlt.trans_le hle) (by omega)
      rw [hwrap] at hinc
      exact absurd hinc (by simp)
    have heom : s.tx.bb.incBit.isEom s.tx.len = decide (s.tx.bb.byte.toNat + 1 = s.tx.len.toNat) := by
      rw [Bool.eq_iff_iff, isEom_iff, decide_eq_true_eq, ← hnext, BitVec.toNat_inj]
      exact and_iff_right hwrap
    rw [hlast, phasesFromBit_eight, length_frameBytes, ← heom]
    simp only [laterPhases, hframe, hnext]
    rfl
  · obtain ⟨-, hlow⟩ := hp.resolve_left fun hc => hne hc.1
    have hbit : s.tx.bb.incBit.bit.toNat = s.tx.bb.bit.toNat + 1 := by
      by_cases h7 : s.tx.bb.bit.toNat < 7
      · exact (incBit_of_lt (hlt.trans_le hle) h7).1
      · exact absurd (incBit_of_eq (hlt.trans_le hle) (by omega)).1 hne
    have hcursor := phasesFromBit_cursor s.cfg (tx := { s.tx with bb := s.tx.bb.incBit }) (by rwa [hkeep]) hle
    simp only [hframe, hkeep, hbit] at hcursor
    rw [hcursor]
    cases p with
    | txHeaderInitLow | txHeaderDestLow | txDataLow => simp only [laterPhases, tableArm, hframe, hkeep, hbit]
    | _ => exact absurd hlow (by decide)

/-! ### One timeout of an attempt -/

/-- The state goes on with its attempt: it is not at the verdict on a byte that was not acknowledged, or on the last. -/
def SendsOn (s : State) : Prop := s.state = .txAckVerify → s.tx.ack = true ∧ s.tx.bb.isEom s.tx.len = false

/-- What a timeout with the bus at `l` does to an attempt that goes on: the first of the phases left is driven, the frame and
the resend count are kept, and the line is taken as the ACK where TxAckVerify is entered. -/
structure Sent (l : Level) (s u : State) : Prop where
  phases : phaseOf u :: phasesLeft u = phasesLeft s
  isTx : u.state.isTx = true
  notify : u.out.notify = none
  len : u.tx.len = s.tx.len
  resends : u.tx.resends = s.tx.resends
  buf : u.tx.bb.buf = s.tx.bb.buf
  ack : u.state = .txAckVerify → s.state = .txAckHigh ∧ u.tx.ack = ackFlag (some l) s.tx.bb

/-- A timeout sends when it enters a transmit state with the frame kept and what it drives is the first of the phases left. -/
theorem sent_of_entry {l : Level} {s u : State} {p : PState} {tx : TxCtx} {drive : Option Level} {edge : Edge}
    {tmo : Option Tick} (hrun : sameRun s u) (hstate : u.state = p) (htx : u.tx = tx)
    (hprod : producedEntry s u drive edge tmo) (hplain : plainEntry u)
    (hphases : (drive, tmo) :: laterPhases s.cfg tx p = phasesLeft s) (hp : p.isTx = true)
    (hkeep : tx.len = s.tx.len ∧ tx.resends = s.tx.resends ∧ tx.bb.buf = s.tx.bb.buf)
    (hack : p = .txAckVerify → s.state = .txAckHigh ∧ tx.ack = ackFlag (some l) s.tx.bb) : Sent l s u := by
  obtain ⟨hcfg, -⟩ := hrun
  obtain ⟨hgpio, harm, -⟩ := hprod
  obtain ⟨-, hnotify, -⟩ := hplain
  obtain ⟨hlen, hresends, hbuf⟩ := hkeep
  subst hstate htx
  refine ⟨?_, hp, hnotify, hlen, hresends, hbuf, hack⟩
  rw [← hphases, phaseOf, phasesLeft, hgpio, harm, hcfg]
  rfl

section Sends

variable {s : State} (h : ProtoInv s) (l : Level)
include h

theorem ProtoInv.txLen_le : s.tx.len.toNat ≤ 16 := ((registersLegal_iff s).1 h.legal).2.2.2.1

/-- A timeout is armed wherever R223 arms one. -/
theorem ProtoInv.armed (hs : stateTimeout s.state = true) : s.armTv = true := by
  obtain ⟨⟨-, -, -, -, -, harm, -⟩, -⟩ := h
  exact harm.trans hs

theorem ProtoInv.armed_of_isTx (htx : s.state.isTx = true) : s.armTv = true := by
  refine h.armed ?_
  cases hs : s.state with
  | disabled | idle => rw [hs] at htx; cases htx
  | _ => rfl

theorem ProtoInv.txLen_pos (htx : s.state.isTx = true) : 1 ≤ s.tx.len.toNat := by
  by_contra h0
  exact h.pending htx (BitVec.eq_of_toNat_eq (by simpa using h0))

/-- The low of a phase pair, and the start bit: nothing is written before the entry of the successor. -/
theorem ProtoInv.sends_low {p : PState} (htx : s.state.isTx = true)
    (hmem : (s.state, p) ∈ [(PState.txStartLow, PState.txStartHigh), (.txStartHigh, .txHeaderInitLow),
      (.txHeaderInitLow, .txHeaderInitHigh), (.txHeaderDestLow, .txHeaderDestHigh), (.txDataLow, .txDataHigh),
      (.txEomLow, .txEomHigh)])
    (hphases : (tableDrive s p, (tableArm s p).2) :: laterPhases s.cfg s.tx p = phasesLeft s) :
    ∃ u, exec (.evTimeout l) s = .next u ∧ Sent l s u := by
  obtain ⟨hplain, -⟩ := transmitTimeoutsDriveTheFrame s l (h.armed_of_isTx htx)
  obtain ⟨u, hu, hrun, hstate, -, htx', -, hprod, hplain⟩ := hplain p hmem
  have hp : p.isTx = true ∧ p ≠ .txAckVerify := by
    simp only [List.mem_cons, Prod.mk.injEq, List.not_mem_nil, or_false] at hmem
    rcases hmem with ⟨-, rfl⟩ | ⟨-, rfl⟩ | ⟨-, rfl⟩ | ⟨-, rfl⟩ | ⟨-, rfl⟩ | ⟨-, rfl⟩ <;> decide
  exact ⟨u, hu, sent_of_entry hrun hstate htx' hprod hplain hphases hp.1 ⟨rfl, rfl, rfl⟩ (absurd · hp.2)⟩

/-- The high of a bit: the low of the bit after it is driven, or that of the EOM bit. -/
theorem ProtoInv.sends_bitHigh {stop : BitVec 3} {last more : PState} (htx : s.state.isTx = true)
    (hmem : (s.state, stop, last, more) ∈
      [(PState.txHeaderInitHigh, (4 : BitVec 3), PState.txHeaderDestLow, PState.txHeaderInitLow),
        (.txHeaderDestHigh, 0, .txEomLow, .txHeaderDestLow), (.txDataHigh, 0, .txEomLow, .txDataLow)])
    (hlt : s.tx.bb.byte.toNat < s.tx.len.toNat)
    (hnext : (s.tx.bb.incBit.bit = 0 ∧ (if s.tx.bb.incBit.bit = stop then last else more) = .txEomLow) ∨
      (s.tx.bb.incBit.bit ≠ 0 ∧ (if s.tx.bb.incBit.bit = stop then last else more) ∈
        [PState.txHeaderInitLow, .txHeaderDestLow, .txDataLow]))
    (hleft : phasesLeft s = phasesFromBit s.cfg (frameBytes s.tx) s.tx.bb.byte.toNat (s.tx.bb.bit.toNat + 1)) :
    ∃ u, exec (.evTimeout l) s = .next u ∧ Sent l s u := by
  obtain ⟨-, hhigh, -⟩ := transmitTimeoutsDriveTheFrame s l (h.armed_of_isTx htx)
  obtain ⟨u, hu, hrun, hstate, -, htx', -, hprod, hplain⟩ := hhigh stop last more _ hmem rfl
  have hlow : (if s.tx.bb.incBit.bit = stop then last else more) ∈
      [PState.txHeaderInitLow, .txHeaderDestLow, .txDataLow, .txEomLow] := by
    rcases hnext with ⟨-, heq⟩ | ⟨-, hin⟩
    · rw [heq]; decide
    · simp only [List.mem_cons, List.not_mem_nil, or_false] at hin ⊢
      tauto
  refine ⟨u, hu, sent_of_entry hrun hstate htx' hprod hplain ?_ ?_ ⟨rfl, rfl, incBit_buf _⟩ fun hv => ?_⟩
  · rw [hleft, phasesFromBit_incBit hlt h.txLen_le hnext]
  · generalize (if s.tx.bb.incBit.bit = stop then last else more) = p at hlow
    revert hlow
    cases p <;> decide
  · rw [hv] at hlow
    exact absurd hlow (by decide)

/-- A timeout of a transmit state that goes on with its attempt. -/
theorem ProtoInv.sends (htx : s.state.isTx = true) (hon : SendsOn s) :
    ∃ u, exec (.evTimeout l) s = .next u ∧ Sent l s u := by
  have hplace := h.txAt
  have hpos := h.txLen_pos htx
  obtain ⟨-, -, hfree, heomHigh, hackLow, hackHigh⟩ := transmitTimeoutsDriveTheFrame s l (h.armed_of_isTx htx)
  cases hs : s.state with
  | txFreeTime =>
    obtain ⟨u, hu, hrun, hstate, -, htx', -, hprod, hplain⟩ := hfree hs
    refine ⟨u, hu, sent_of_entry hrun hstate htx' hprod hplain ?_ rfl ⟨rfl, rfl, rfl⟩ (absurd · (by decide))⟩
    rw [phasesLeft_of_state hs, laterPhases, framePhases_eq]
    rfl
  | txStartLow =>
    exact h.sends_low l htx (p := .txStartHigh) (by rw [hs]; decide) (phasesLeft_of_state hs).symm
  | txStartHigh =>
    rw [hs] at hplace
    obtain ⟨hbit, hbyte⟩ := hplace
    have hzero : s.tx.bb.byte.toNat = 0 := by rw [hbyte]; rfl
    have hleft : phasesLeft s = phasesFromByte s.cfg (frameBytes s.tx) 0 := phasesLeft_of_state hs
    refine h.sends_low l htx (p := .txHeaderInitLow) (by rw [hs]; decide) ?_
    rw [hleft, ← hzero, phasesFromByte_cursor s.cfg (by omega) h.txLen_le hbit]
    rfl
  | txHeaderInitLow =>
    exact h.sends_low l htx (p := .txHeaderInitHigh) (by rw [hs]; decide) (phasesLeft_of_state hs).symm
  | txHeaderDestLow =>
    exact h.sends_low l htx (p := .txHeaderDestHigh) (by rw [hs]; decide) (phasesLeft_of_state hs).symm
  | txDataLow =>
    exact h.sends_low l htx (p := .txDataHigh) (by rw [hs]; decide) (phasesLeft_of_state hs).symm
  | txEomLow =>
    exact h.sends_low l htx (p := .txEomHigh) (by rw [hs]; decide) (phasesLeft_of_state hs).symm
  | txHeaderInitHigh =>
    rw [hs] at hplace
    obtain ⟨hbyte, hbit⟩ := hplace
    have hzero : s.tx.bb.byte.toNat = 0 := by rw [hbyte]; rfl
    obtain ⟨hinc, -⟩ := incBit_of_lt (b := s.tx.bb) (by omega) (by omega)
    refine h.sends_bitHigh l (stop := 4) (last := .txHeaderDestLow) (more := .txHeaderInitLow) htx (by rw [hs]; decide)
      (by omega) (Or.inr ⟨fun h0 => ?_, ?_⟩) (phasesLeft_of_state hs)
    · rw [h0] at hinc
      exact absurd hinc (by simp)
    · split <;> decide
  | txHeaderDestHigh =>
    rw [hs] at hplace
    obtain ⟨hbyte, -⟩ := hplace
    have hzero : s.tx.bb.byte.toNat = 0 := by rw [hbyte]; rfl
    refine h.sends_bitHigh l (stop := 0) (last := .txEomLow) (more := .txHeaderDestLow) htx (by rw [hs]; decide)
      (by omega) ?_ (phasesLeft_of_state hs)
    by_cases h0 : s.tx.bb.incBit.bit = 0
    · exact Or.inl ⟨h0, if_pos h0⟩
    · exact Or.inr ⟨h0, by rw [if_neg h0]; decide⟩
  | txDataHigh =>
    rw [hs] at hplace
    obtain ⟨-, hlt⟩ := hplace
    refine h.sends_bitHigh l (stop := 0) (last := .txEomLow) (more := .txDataLow) htx (by rw [hs]; decide) hlt ?_ (phasesLeft_of_state hs)
    by_cases h0 : s.tx.bb.incBit.bit = 0
    · exact Or.inl ⟨h0, if_pos h0⟩
    · exact Or.inr ⟨h0, by rw [if_neg h0]; decide⟩
  | txEomHigh =>
    obtain ⟨u, hu, hrun, hstate, -, htx', -, hprod, hplain⟩ := heomHigh hs
    exact ⟨u, hu, sent_of_entry hrun hstate htx' hprod hplain (phasesLeft_of_state hs).symm rfl ⟨rfl, rfl, rfl⟩
      (absurd · (by decide))⟩
  | txAckLow =>
    obtain ⟨u, hu, hrun, hstate, -, htx', -, hprod, hplain⟩ := hackLow hs
    exact ⟨u, hu, sent_of_entry hrun hstate htx' hprod hplain (phasesLeft_of_state hs).symm rfl ⟨rfl, rfl, rfl⟩
      (absurd · (by decide))⟩
  | txAckHigh =>
    obtain ⟨u, hu, hrun, hstate, -, htx', -, hprod, hplain⟩ := hackHigh hs
    exact ⟨u, hu, sent_of_entry hrun hstate htx' hprod hplain (phasesLeft_of_state hs).symm rfl ⟨rfl, rfl, rfl⟩
      fun _ => ⟨hs, (ackFlag_some l s.tx.bb).symm⟩⟩
  | txAckVerify =>
    rw [hs] at hplace
    obtain ⟨hack, hmore⟩ := hon hs
    have hlt := hplace.byte_lt_len hmore
    obtain ⟨hbit, -, -⟩ := hplace
    obtain ⟨u, hu, hrun, hcause, hresult, -, hcase, -⟩ := ackDecidesTheTransmission s l (h.armed_of_isTx htx) hs
    obtain ⟨hstate, -, htx', hnotify, hprod⟩ := hcase hack hmore
    have hsel : u.selResult = none := by
      rw [exec_evTimeout_in hs (h.armed_of_isTx htx)] at hu
      cases hu
      exact timeoutIn_selResult ..
    refine ⟨u, hu, sent_of_entry hrun hstate htx' hprod ⟨hcause, hnotify, hresult, hsel⟩ ?_ rfl ⟨rfl, rfl, rfl⟩
      (absurd · (by decide))⟩
    have hleft : phasesLeft s = phasesFromByte s.cfg (frameBytes s.tx) s.tx.bb.byte.toNat := phasesLeft_of_state hs
    rw [hleft, phasesFromByte_cursor s.cfg hlt h.txLen_le hbit]
    rfl
  | _ => rw [hs] at htx; cases htx

end Sends

end Sys2Proof.Machine
end

section
/-! SUPPORT. PROOFS. State events (44_state_events.md), runs of timeouts: the acknowledged attempt, the six attempts that
fail, and the way back to Idle, each by induction over the timeouts with the phases left as the measure. -/

namespace Sys2Proof.Machine

/-! ### Runs of operations -/

section Runs

variable {i : Instr} {is js : List Instr} {s u t : State}

theorem after_cons (h : exec i s = .next u) (is : List Instr) : after (i :: is) s = after is u := by
  simp only [after, h]

theorem trail_cons (h : exec i s = .next u) (is : List Instr) : trail (i :: is) s = u :: trail is u := by
  simp only [trail, h]

theorem notifs_cons (h : exec i s = .next u) (is : List Instr) :
    notifs (i :: is) s = u.out.notify.toList ++ notifs is u := by
  rw [notifs, notifs, trail_cons h]
  cases hn : u.out.notify <;> simp [hn]

/-- A run from `s` to `t` that raises the notifications `ns`. -/
structure Runs (is : List Instr) (s t : State) (ns : List Notif) : Prop where
  after : after is s = some t
  notifs : notifs is s = ns

theorem Runs.nil (s : State) : Runs [] s s [] := ⟨rfl, rfl⟩

theorem Runs.cons {ns : List Notif} (h : exec i s = .next u) (hrun : Runs is u t ns) :
    Runs (i :: is) s t (u.out.notify.toList ++ ns) :=
  ⟨(after_cons h is).trans hrun.after, by rw [notifs_cons h, hrun.notifs]⟩

/-- A step that notifies nothing before a run. -/
theorem Runs.cons_silent {ns : List Notif} (h : exec i s = .next u) (hn : u.out.notify = none) (hrun : Runs is u t ns) :
    Runs (i :: is) s t ns := by
  have hcons := hrun.cons h
  rwa [hn] at hcons

theorem Runs.append {ns ms : List Notif} (h : Runs is s u ns) (hrun : Runs js u t ms) :
    Runs (is ++ js) s t (ns ++ ms) := by
  induction is generalizing s ns with
  | nil =>
    obtain ⟨hafter, hns⟩ := h
    cases hafter
    cases hns
    exact hrun
  | cons i is ih =>
    obtain ⟨v, hv⟩ := exec_next i s
    obtain ⟨hafter, hns⟩ := h
    rw [after_cons hv] at hafter
    rw [notifs_cons hv] at hns
    rw [← hns, List.append_assoc]
    exact (ih ⟨hafter, rfl⟩).cons hv

end Runs

/-! ### How many phases are left -/

theorem length_framePhases (c : Cfg) (bytes : List Byte) : (framePhases c bytes).length = 2 + 21 * bytes.length := by
  rw [framePhases_eq, List.length_append, length_phasesFromByte]
  rfl

section PhaseCount

variable {s : State} (h : ProtoInv s)

theorem length_phasesLeft_txFreeTime (hs : s.state = .txFreeTime) :
    (phasesLeft s).length = 2 + 21 * s.tx.len.toNat := by
  rw [phasesLeft_of_state hs, laterPhases, length_framePhases, length_frameBytes]

theorem length_phasesLeft_txAckHigh (hs : s.state = .txAckHigh) :
    (phasesLeft s).length = 1 + 21 * (s.tx.len.toNat - s.tx.bb.byte.toNat) := by
  rw [phasesLeft_of_state hs, laterPhases, List.length_append, length_phasesFromByte, length_frameBytes]
  rfl

theorem length_phasesLeft_txAckVerify (hs : s.state = .txAckVerify) :
    (phasesLeft s).length = 21 * (s.tx.len.toNat - s.tx.bb.byte.toNat) := by
  rw [phasesLeft_of_state hs, laterPhases, length_phasesFromByte, length_frameBytes]

include h

/-- No transmit state has more phases left than TxFreeTime; and none but TxAckVerify has exactly those of the bytes after
the header left. -/
theorem ProtoInv.length_phasesLeft (htx : s.state.isTx = true) :
    (phasesLeft s).length ≤ 2 + 21 * s.tx.len.toNat ∧
      ((phasesLeft s).length = 21 * (s.tx.len.toNat - 1) → s.state = .txAckVerify) := by
  have hplace := h.txAt
  have hpos := h.txLen_pos htx
  have hack : (ackPhases s.cfg).length = 3 := rfl
  have hzero : s.tx.bb.byte = 0 → s.tx.bb.byte.toNat = 0 := fun h0 => by rw [h0]; rfl
  cases hs : s.state with
  | txAckVerify => exact ⟨by rw [length_phasesLeft_txAckVerify hs]; omega, fun _ => rfl⟩
  | txFreeTime | txStartLow | txStartHigh =>
    simp only [phasesLeft_of_state hs, laterPhases, length_framePhases, List.length_cons, length_phasesFromByte,
      length_frameBytes]
    exact ⟨by omega, fun heq => by omega⟩
  | txHeaderInitLow | txHeaderInitHigh | txHeaderDestLow | txHeaderDestHigh =>
    rw [hs] at hplace
    obtain ⟨hbyte, -⟩ := hplace
    have hlast := s.tx.bb.bit.isLt
    simp only [phasesLeft_of_state hs, laterPhases, List.length_cons, length_phasesFromBit, length_frameBytes, hzero hbyte]
    exact ⟨by omega, fun heq => by omega⟩
  | txDataLow | txDataHigh =>
    rw [hs] at hplace
    obtain ⟨hdata, hlt⟩ := hplace
    have hlast := s.tx.bb.bit.isLt
    simp only [phasesLeft_of_state hs, laterPhases, List.length_cons, length_phasesFromBit, length_frameBytes]
    exact ⟨by omega, fun heq => by omega⟩
  | txEomLow | txEomHigh | txAckLow | txAckHigh =>
    rw [hs] at hplace
    obtain ⟨-, hnext, -⟩ := hplace
    simp only [phasesLeft_of_state hs, laterPhases, List.length_cons, List.length_append, List.length_drop, hack,
      length_phasesFromByte, length_frameBytes]
    exact ⟨by omega, fun heq => by omega⟩
  | _ => rw [hs] at htx; cases htx

end PhaseCount

/-! ### The ACK of a line -/

theorem isBroadcast_of_buf {b b' : BitBuffer} (h : b'.buf = b.buf) : isBroadcast b' = isBroadcast b := by
  rw [isBroadcast, isBroadcast, BitBuffer.dest, BitBuffer.dest, h]

/-- A byte is acknowledged when the line is low at the sample, and that of a broadcast when it is not (R239). -/
theorem ackFlag_eq (l : Level) (b : BitBuffer) : ackFlag (some l) b = decide (l = isBroadcast b) := by
  rw [ackFlag, lineIsLow]
  cases isBroadcast b <;> cases l <;> rfl

/-! ### An acknowledged attempt (O57) -/

/-- The lines at the ACK samples of `n` bytes, counted from the end of the attempt, are all `b`. -/
def SamplesAre (n : Nat) (b : Level) (lines : List Level) : Prop :=
  ∀ m < n, 21 * m + 2 ≤ lines.length → lines[lines.length - (21 * m + 2)]? = some b

theorem SamplesAre.tail {n : Nat} {b l : Level} {lines : List Level} (h : SamplesAre n b (l :: lines)) :
    SamplesAre n b lines := by
  intro m hm hle
  have hline := h m hm (by rw [List.length_cons]; omega)
  rwa [List.length_cons, Nat.succ_sub hle, List.getElem?_cons_succ] at hline

/-- A run of timeouts that sends what is left of an attempt: it ends at `u`, in Idle, with SEND_OK. -/
structure SendsAll (s : State) (us : List State) (u : State) : Prop where
  phases : us.map phaseOf = phasesLeft s
  quiet : ∀ v ∈ us, v.state ≠ .idle ∧ v.out.notify = none
  state : u.state = .idle
  notify : u.out.notify = some .sendOk
  len : u.tx.len = 0
  resends : u.tx.resends = 0

/-- The verdict on the last byte, acknowledged. -/
theorem ProtoInv.sendOk {s : State} (h : ProtoInv s) (l : Level) (hs : s.state = .txAckVerify) (hack : s.tx.ack = true)
    (heom : s.tx.bb.isEom s.tx.len = true) : ∃ u, exec (.evTimeout l) s = .next u ∧ SendsAll s [] u := by
  have htx : s.state.isTx = true := by rw [hs]; rfl
  obtain ⟨u, hu, -, -, -, -, -, hlast, -⟩ := ackDecidesTheTransmission s l (h.armed_of_isTx htx) hs
  obtain ⟨hnotify, -, htx', -, hidle, -⟩ := hlast hack heom
  obtain ⟨-, hbyte⟩ := (isEom_iff _ _).1 heom
  have hnone : phasesLeft s = [] := by
    rw [← List.length_eq_zero_iff, length_phasesLeft_txAckVerify hs, hbyte, Nat.sub_self]
  exact ⟨u, hu, hnone.symm, by simp, (hidle rfl).1, hnotify, by rw [htx'], by rw [htx']⟩

/-- By induction over the lines: at the verdict on the last byte the run ends, before it each timeout drives the first of the
phases left, and the line of a TxAckHigh timeout is one of the samples. -/
theorem ProtoInv.sendsAll {s : State} (h : ProtoInv s) (htx : s.state.isTx = true)
    (hack : s.state = .txAckVerify → s.tx.ack = true) {lines : List Level}
    (hlen : lines.length = (phasesLeft s).length + 1)
    (hlines : SamplesAre s.tx.len.toNat (isBroadcast s.tx.bb) lines) :
    ∃ us u, trail (lines.map Instr.evTimeout) s = us ++ [u] ∧ SendsAll s us u := by
  induction lines generalizing s with
  | nil => exact absurd hlen (by simp)
  | cons l rest ih =>
    rw [List.length_cons, Nat.add_right_cancel_iff] at hlen
    by_cases hend : s.state = .txAckVerify ∧ s.tx.bb.isEom s.tx.len = true
    · obtain ⟨hs, heom⟩ := hend
      obtain ⟨u, hu, hall⟩ := h.sendOk l hs (hack hs) heom
      have hrest : rest = [] := List.length_eq_zero_iff.1 (by rw [hlen, ← hall.phases]; rfl)
      exact ⟨[], u, by rw [hrest, List.map_singleton, trail_cons hu]; rfl, hall⟩
    · have hon : SendsOn s := fun hs => ⟨hack hs, Bool.eq_false_of_not_eq_true fun heom => hend ⟨hs, heom⟩⟩
      obtain ⟨u, hu, hsent⟩ := h.sends l htx hon
      have hsame : isBroadcast u.tx.bb = isBroadcast s.tx.bb := isBroadcast_of_buf hsent.buf
      have hverdict : u.state = .txAckVerify → u.tx.ack = true := by
        intro hv
        obtain ⟨hs, hflag⟩ := hsent.ack hv
        have hplace := h.txAt
        rw [hs] at hplace
        obtain ⟨-, hpos, hle⟩ := hplace
        have hcount := length_phasesLeft_txAckHigh hs
        have hsample := hlines (s.tx.len.toNat - s.tx.bb.byte.toNat) (by omega) (by rw [List.length_cons]; omega)
        have hfirst : (l :: rest).length - (21 * (s.tx.len.toNat - s.tx.bb.byte.toNat) + 2) = 0 := by
          rw [List.length_cons]
          omega
        rw [hfirst, List.getElem?_cons_zero, Option.some_inj] at hsample
        rw [hflag, ackFlag_eq, hsample, decide_eq_true rfl]
      have hcount : rest.length = (phasesLeft u).length + 1 := by
        rw [hlen, ← hsent.phases, List.length_cons]
      obtain ⟨us, v, htrail, hall⟩ :=
        ih (exec_protoInv rfl h hu) hsent.isTx hverdict hcount (by rw [hsent.len, hsame]; exact hlines.tail)
      refine ⟨u :: us, v, by rw [List.map_cons, trail_cons hu, htrail]; rfl, ?_, ?_, hall.state, hall.notify, hall.len,
        hall.resends⟩
      · rw [List.map_cons, hall.phases, hsent.phases]
      · have hnotIdle : u.state ≠ .idle := fun hi => by
          have hisTx := hsent.isTx
          rw [hi] at hisTx
          cases hisTx
        exact List.forall_mem_cons.2 ⟨⟨hnotIdle, hsent.notify⟩, hall.quiet⟩

/-- Settles O57: from TxFreeTime the phases left are those of the frame. -/
theorem acknowledgedFrameIsSent : Obligations.AcknowledgedFrameIsSent := by
  intro s lines h hs hlen hlines
  have hcount := length_phasesLeft_txFreeTime hs
  have hsamples : SamplesAre s.tx.len.toNat (isBroadcast s.tx.bb) lines := by
    intro m hm _
    have hindex : lines.length - (21 * m + 2) = 3 + 21 * (s.tx.len.toNat - 1 - m) + 19 := by omega
    rw [hindex]
    exact hlines _ (by omega)
  obtain ⟨us, u, htrail, hall⟩ := h.sendsAll (by rw [hs]; rfl) (fun hv => by rw [hs] at hv; cases hv) (by omega) hsamples
  have hus : us.length = 2 + 21 * s.tx.len.toNat := by rw [← hcount, ← hall.phases, List.length_map]
  simp only [htrail, List.dropLast_concat, List.getLast?_concat, List.length_append, List.length_singleton]
  refine ⟨by omega, hall.quiet, ?_, u, rfl, hall.state, hall.notify, hall.len, hall.resends⟩
  rw [hall.phases, phasesLeft_of_state hs]
  rfl

/-! ### Attempts whose header is not acknowledged (O58) -/

/-- `v` is at the verdict on a byte of the frame pending in `s`. -/
structure AtVerdict (s v : State) : Prop where
  proto : ProtoInv v
  state : v.state = .txAckVerify
  len : v.tx.len = s.tx.len
  buf : v.tx.bb.buf = s.tx.bb.buf

/-- From a state of the header of an attempt to the verdict on the header: nothing is notified, no resend counted, and the
last line is the sample. -/
theorem ProtoInv.headerRun {s : State} (h : ProtoInv s) (htx : s.state.isTx = true) {lines : List Level}
    (hlen : lines.length + 21 * (s.tx.len.toNat - 1) = (phasesLeft s).length) :
    ∃ v, Runs (lines.map Instr.evTimeout) s v [] ∧ AtVerdict s v ∧ v.tx.resends = s.tx.resends ∧
      ∀ l, lines.getLast? = some l → v.tx.ack = decide (l = isBroadcast s.tx.bb) := by
  induction lines generalizing s with
  | nil =>
    rw [List.length_nil, Nat.zero_add] at hlen
    exact ⟨s, Runs.nil s, ⟨h, (h.length_phasesLeft htx).2 hlen.symm, rfl, rfl⟩, rfl, fun l hl => by cases hl⟩
  | cons l rest ih =>
    rw [List.length_cons] at hlen
    have hnot : s.state ≠ .txAckVerify := by
      intro hs
      have hplace := h.txAt
      rw [hs] at hplace
      obtain ⟨-, hpos, -⟩ := hplace
      rw [length_phasesLeft_txAckVerify hs] at hlen
      omega
    obtain ⟨u, hu, hsent⟩ := h.sends l htx (absurd · hnot)
    have hcount : rest.length + 21 * (u.tx.len.toNat - 1) = (phasesLeft u).length := by
      rw [← hsent.phases, List.length_cons] at hlen
      rw [hsent.len]
      omega
    obtain ⟨v, hrun, hv, hresends, hsample⟩ := ih (exec_protoInv rfl h hu) hsent.isTx hcount
    refine ⟨v, hrun.cons_silent hu hsent.notify, ⟨hv.proto, hv.state, hv.len.trans hsent.len, hv.buf.trans hsent.buf⟩,
      hresends.trans hsent.resends, ?_⟩
    cases rest with
    | nil =>
      obtain ⟨hafter, -⟩ := hrun
      cases hafter
      rintro _ ⟨⟩
      rw [(hsent.ack hv.state).2, ackFlag_eq]
      rfl
    | cons l' rest =>
      rw [List.getLast?_cons_cons, ← isBroadcast_of_buf hsent.buf]
      exact hsample

/-- The verdict NAK with a resend left: the attempt begins anew, one resend counted. -/
theorem AtVerdict.resend {s v : State} (hv : AtVerdict s v) (l : Level) (hack : v.tx.ack = false)
    (hr : v.tx.resends.toNat < 5) :
    ∃ u, exec (.evTimeout l) v = .next u ∧ ProtoInv u ∧ u.state = .txFreeTime ∧ u.out.notify = none ∧
      u.tx.resends.toNat = v.tx.resends.toNat + 1 ∧ u.tx.len = s.tx.len ∧ u.tx.bb.buf = s.tx.bb.buf := by
  have htx : v.state.isTx = true := by rw [hv.state]; rfl
  obtain ⟨u, hu, -, -, -, -, -, -, hresend, -⟩ :=
    ackDecidesTheTransmission v l (hv.proto.armed_of_isTx htx) hv.state
  obtain ⟨hstate, -, htx', hnotify, -⟩ := hresend hack hr
  refine ⟨u, hu, exec_protoInv rfl hv.proto hu, hstate, hnotify, ?_, ?_, ?_⟩ <;> rw [htx']
  · exact resends_succ_toNat hr
  · exact hv.len
  · exact hv.buf

/-- The verdict NAK after the last resend: the frame has failed. -/
theorem AtVerdict.fail {s v : State} (hv : AtVerdict s v) (l : Level) (hack : v.tx.ack = false)
    (hr : 5 ≤ v.tx.resends.toNat) :
    ∃ u, exec (.evTimeout l) v = .next u ∧ u.state = .idle ∧ u.out.notify = some .sendFailed ∧ u.tx.len = 0 ∧
      u.tx.resends = 0 := by
  have htx : v.state.isTx = true := by rw [hv.state]; rfl
  obtain ⟨u, hu, -, -, -, -, -, -, -, hfailed⟩ :=
    ackDecidesTheTransmission v l (hv.proto.armed_of_isTx htx) hv.state
  obtain ⟨hnotify, -, htx', -, hidle, -⟩ := hfailed hack hr
  exact ⟨u, hu, (hidle rfl).1, hnotify, by rw [htx'], by rw [htx']⟩

/-- One attempt from TxFreeTime to a NAK of its header, 23 timeouts. -/
theorem ProtoInv.attempt {s : State} (h : ProtoInv s) (hs : s.state = .txFreeTime) {lines : List Level}
    (hlen : lines.length = 23) (hnak : lines[22]? = some (!isBroadcast s.tx.bb)) :
    ∃ v, Runs (lines.map Instr.evTimeout) s v [] ∧ AtVerdict s v ∧ v.tx.resends = s.tx.resends ∧ v.tx.ack = false := by
  have htx : s.state.isTx = true := by rw [hs]; rfl
  have hpos := h.txLen_pos htx
  have hcount := length_phasesLeft_txFreeTime hs
  obtain ⟨v, hrun, hv, hresends, hsample⟩ := h.headerRun htx (lines := lines) (by omega)
  refine ⟨v, hrun, hv, hresends, ?_⟩
  rw [hsample (!isBroadcast s.tx.bb) (by rw [List.getLast?_eq_getElem?, hlen]; exact hnak)]
  cases isBroadcast s.tx.bb <;> rfl

/-- `m` resends after the first attempt, all NAKed in the header: the block stands at the verdict on the last one. -/
theorem ProtoInv.attempts (m : Nat) {s : State} (h : ProtoInv s) (hs : s.state = .txFreeTime)
    (hr : s.tx.resends.toNat + m ≤ 5) {lines : List Level} (hlen : lines.length = 24 * m + 23)
    (hnak : ∀ k ≤ m, lines[24 * k + 22]? = some (!isBroadcast s.tx.bb)) :
    ∃ v, Runs (lines.map Instr.evTimeout) s v [] ∧ AtVerdict s v ∧ v.tx.resends.toNat = s.tx.resends.toNat + m ∧
      v.tx.ack = false := by
  induction m generalizing s lines with
  | zero =>
    obtain ⟨v, hrun, hv, hresends, hack⟩ := h.attempt hs hlen (hnak 0 (Nat.le_refl 0))
    exact ⟨v, hrun, hv, by rw [hresends, Nat.add_zero], hack⟩
  | succ m ih =>
    obtain ⟨first, l, rest, rfl, hfirst⟩ : ∃ first l rest, lines = first ++ l :: rest ∧ first.length = 23 :=
      ⟨lines.take 23, lines[23], lines.drop 24, by rw [← List.drop_eq_getElem_cons, List.take_append_drop],
        by rw [List.length_take]; omega⟩
    have hrest : rest.length = 24 * m + 23 := by
      rw [List.length_append, List.length_cons, hfirst] at hlen
      omega
    have hhead := hnak 0 (Nat.zero_le _)
    rw [List.getElem?_append_left (by omega)] at hhead
    obtain ⟨v, hrun, hv, hresends, hack⟩ := h.attempt hs hfirst hhead
    obtain ⟨u, hu, huproto, hustate, hunotify, huresends, hulen, hubuf⟩ := hv.resend l hack (by rw [hresends]; omega)
    have hnak' : ∀ k ≤ m, rest[24 * k + 22]? = some (!isBroadcast u.tx.bb) := by
      intro k hk
      have hline := hnak (k + 1) (by omega)
      have hindex : 24 * (k + 1) + 22 - 23 = 24 * k + 22 + 1 := by omega
      rwa [List.getElem?_append_right (by omega), hfirst, hindex, List.getElem?_cons_succ, ← isBroadcast_of_buf hubuf]
        at hline
    rw [hresends] at huresends
    obtain ⟨w, hrun', hw, hwresends, hwack⟩ := ih huproto hustate (by omega) hrest hnak'
    refine ⟨w, ?_, ⟨hw.proto, hw.state, hw.len.trans hulen, hw.buf.trans hubuf⟩, by omega, hwack⟩
    rw [List.map_append, List.map_cons]
    exact hrun.append (hrun'.cons_silent hu hunotify)

/-- Settles O58: 143 timeouts lead to the verdict on the sixth header, and the last one to SEND_FAILED. -/
theorem sixNaksFailTheFrame : Obligations.SixNaksFailTheFrame := by
  intro s lines h hs hr hlen hnak
  have hzero : s.tx.resends.toNat = 0 := by rw [hr]; rfl
  have hlines : lines = lines.take 143 ++ [lines[143]] := by
    have hdrop : lines.drop 143 = [lines[143]] := by
      rw [List.drop_eq_getElem_cons (by omega), List.drop_eq_nil_of_le (by omega)]
    rw [← hdrop, List.take_append_drop]
  have hnak' : ∀ k ≤ 5, (lines.take 143)[24 * k + 22]? = some (!isBroadcast s.tx.bb) := fun k hk => by
    rw [List.getElem?_take_of_lt (by omega)]
    exact hnak k (by omega)
  obtain ⟨v, hrun, hv, hresends, hack⟩ :=
    h.attempts 5 hs (by omega) (by rw [List.length_take]; omega) hnak'
  obtain ⟨u, hu, hidle, hnotify, hulen, huresends⟩ := hv.fail lines[143] hack (by omega)
  have hall : Runs (lines.map Instr.evTimeout) s u [.sendFailed] := by
    have hlast := (Runs.nil u).cons hu
    rw [hnotify] at hlast
    rw [hlines, List.map_append]
    exact hrun.append hlast
  exact ⟨hall.notifs, hrun.notifs, u, hall.after, hidle, hulen, huresends⟩

/-! ### Back to Idle (O60) -/

/-- How many timeouts a receive state takes to leave reception, at most. -/
def receiveTimeouts : PState → Nat
  | .rxAckLow => 3
  | .rxAckVerify => 2
  | _ => 1

/-- A bound on the timeouts to Idle: the attempt at hand and the resends left, each as long as a frame of 16 bytes; a receive
state may find a frame pending when it is done. -/
def timeoutsLeft (s : State) : Nat :=
  if s.state.isTx then (phasesLeft s).length + 1 + (5 - s.tx.resends.toNat) * (3 + 21 * 16)
  else 6 * (3 + 21 * 16) + receiveTimeouts s.state

theorem timeoutsLeft_of_isTx {s : State} (htx : s.state.isTx = true) :
    timeoutsLeft s = (phasesLeft s).length + 1 + (5 - s.tx.resends.toNat) * (3 + 21 * 16) := by
  rw [timeoutsLeft, if_pos htx]

theorem timeoutsLeft_of_isRx {s : State} (hrx : s.state.isRx = true) :
    timeoutsLeft s = 6 * (3 + 21 * 16) + receiveTimeouts s.state := by
  rw [timeoutsLeft, PState.isTx_of_isRx hrx, if_neg Bool.false_ne_true]

theorem receiveTimeouts_bounds (p : PState) : 1 ≤ receiveTimeouts p ∧ receiveTimeouts p ≤ 3 := by
  cases p <;> decide

theorem isTx_or_isRx {p : PState} (hd : p ≠ .disabled) (hi : p ≠ .idle) : p.isTx = true ∨ p.isRx = true := by
  cases p with
  | disabled => exact absurd rfl hd
  | idle => exact absurd rfl hi
  | _ => decide

/-- A receive state is followed by Idle or by a receive state nearer to it. -/
theorem timeoutTargets_of_isRx (p : PState) :
    p.isRx = true → ∀ q ∈ timeoutTargets p, q = .idle ∨ (q.isRx = true ∧ receiveTimeouts q < receiveTimeouts p) := by
  cases p <;> decide

section Progress

variable {s : State} (h : ProtoInv s) (l : Level)
include h

theorem ProtoInv.timeoutsLeft_le_of_isTx (htx : s.state.isTx = true) : timeoutsLeft s ≤ 6 * (3 + 21 * 16) := by
  have hphases := (h.length_phasesLeft htx).1
  have hlen := h.txLen_le
  rw [timeoutsLeft_of_isTx htx]
  omega

/-- A timeout in a transmit state: the attempt goes on, begins anew with a resend less to come, or ends in Idle. -/
theorem ProtoInv.progress_of_isTx (htx : s.state.isTx = true) :
    ∃ u, exec (.evTimeout l) s = .next u ∧
      (u.state = .idle ∨ (u.state.isTx = true ∧ timeoutsLeft u < timeoutsLeft s)) := by
  by_cases hon : SendsOn s
  · obtain ⟨u, hu, hsent⟩ := h.sends l htx hon
    refine ⟨u, hu, Or.inr ⟨hsent.isTx, ?_⟩⟩
    rw [timeoutsLeft_of_isTx hsent.isTx, timeoutsLeft_of_isTx htx, hsent.resends, ← hsent.phases, List.length_cons]
    omega
  · obtain ⟨hs, hverdict⟩ := Classical.not_imp.1 hon
    have hat : AtVerdict s s := ⟨h, hs, rfl, rfl⟩
    cases hack : s.tx.ack with
    | true =>
      have heom : s.tx.bb.isEom s.tx.len = true := by
        rw [← Bool.not_eq_false]
        exact fun hmore => hverdict ⟨hack, hmore⟩
      obtain ⟨u, hu, hall⟩ := h.sendOk l hs hack heom
      exact ⟨u, hu, Or.inl hall.state⟩
    | false =>
      by_cases hr : s.tx.resends.toNat < 5
      · obtain ⟨u, hu, huproto, hustate, -, huresends, -, -⟩ := hat.resend l hack hr
        have hutx : u.state.isTx = true := by rw [hustate]; rfl
        have hphases := (huproto.length_phasesLeft hutx).1
        have hlen := huproto.txLen_le
        refine ⟨u, hu, Or.inr ⟨hutx, ?_⟩⟩
        rw [timeoutsLeft_of_isTx hutx, timeoutsLeft_of_isTx htx]
        omega
      · obtain ⟨u, hu, hidle, -⟩ := hat.fail l hack (by omega)
        exact ⟨u, hu, Or.inl hidle⟩

/-- A timeout in a receive state leads on in the ACK slot, or to Idle, or into the free time of a frame that waits. -/
theorem ProtoInv.progress_of_isRx (hrx : s.state.isRx = true) :
    ∃ u, exec (.evTimeout l) s = .next u ∧
      (u.state = .idle ∨ ((u.state.isTx = true ∨ u.state.isRx = true) ∧ timeoutsLeft u < timeoutsLeft s)) := by
  have harm : s.armTv = true := h.armed (by
    cases hs : s.state with
    | disabled | idle => rw [hs] at hrx; cases hrx
    | _ => rfl)
  have hu := exec_evTimeout_of_armed (l := l) harm
  obtain ⟨q, hq, hstate⟩ := h.1.timeout_reaches l harm
  refine ⟨_, hu, ?_⟩
  generalize timeoutIn s.state l s.beginStep = u at hu hstate
  rw [timeoutsLeft_of_isRx hrx]
  rcases timeoutTargets_of_isRx _ hrx q hq with rfl | ⟨hqrx, hnear⟩
  · by_cases hlen : u.tx.len = 0
    · exact Or.inl (hstate.trans (if_neg fun hc => hc.2 hlen))
    · have hutx : u.state.isTx = true := by rw [hstate, if_pos ⟨rfl, hlen⟩]; rfl
      have hle := (exec_protoInv rfl h hu).timeoutsLeft_le_of_isTx hutx
      have hpos := (receiveTimeouts_bounds s.state).1
      exact Or.inr ⟨Or.inl hutx, by omega⟩
  · have hne : q ≠ .idle := by rintro rfl; cases hqrx
    rw [if_neg fun hc => hne hc.1] at hstate
    refine Or.inr ⟨Or.inr (hstate ▸ hqrx), ?_⟩
    rw [timeoutsLeft_of_isRx (hstate ▸ hqrx), hstate]
    omega

end Progress

/-- By induction over the lines, the bound falling with each timeout. -/
theorem ProtoInv.reachesIdle {s : State} (h : ProtoInv s) (hactive : s.state.isTx = true ∨ s.state.isRx = true)
    {lines : List Level} (hle : timeoutsLeft s ≤ lines.length) :
    ∃ k ≤ lines.length, ∃ u, after ((lines.take k).map Instr.evTimeout) s = some u ∧ u.state = .idle := by
  induction lines generalizing s with
  | nil =>
    have hpos : 0 < timeoutsLeft s := by
      rcases hactive with htx | hrx
      · rw [timeoutsLeft_of_isTx htx]; omega
      · rw [timeoutsLeft_of_isRx hrx]; omega
    rw [List.length_nil] at hle
    omega
  | cons l rest ih =>
    obtain ⟨u, hu, hnext⟩ : ∃ u, exec (.evTimeout l) s = .next u ∧
        (u.state = .idle ∨ ((u.state.isTx = true ∨ u.state.isRx = true) ∧ timeoutsLeft u < timeoutsLeft s)) := by
      rcases hactive with htx | hrx
      · obtain ⟨u, hu, hnext⟩ := h.progress_of_isTx l htx
        exact ⟨u, hu, hnext.imp_right fun ⟨hutx, hlt⟩ => ⟨Or.inl hutx, hlt⟩⟩
      · exact h.progress_of_isRx l hrx
    rcases hnext with hidle | ⟨huactive, hlt⟩
    · refine ⟨1, by simp, u, ?_, hidle⟩
      rw [List.take_succ_cons, List.take_zero, List.map_singleton, after_cons hu, after]
    · rw [List.length_cons] at hle
      obtain ⟨k, hk, v, hafter, hidle⟩ := ih (exec_protoInv rfl h hu) huactive (by omega)
      refine ⟨k + 1, by simpa using hk, v, ?_, hidle⟩
      rw [List.take_succ_cons, List.map_cons, after_cons hu, hafter]

/-- Settles O60: the bound on the timeouts left is that of the statement. -/
theorem timeoutsReachIdle : Obligations.TimeoutsReachIdle := by
  intro s lines h hd hi hlen
  have hactive := isTx_or_isRx hd hi
  refine h.reachesIdle hactive ?_
  rcases hactive with htx | hrx
  · have hle := h.timeoutsLeft_le_of_isTx htx
    omega
  · have hle := (receiveTimeouts_bounds s.state).2
    rw [if_pos hrx] at hlen
    rw [timeoutsLeft_of_isRx hrx]
    omega

end Sys2Proof.Machine
end

section
/-! SUPPORT. PROOFS. State events (44_state_events.md), whole frames received: the bits stored one after the other, then the
run of a valid frame bit by bit, byte by byte. -/

namespace Sys2Proof.Machine

/-! ### Bits stored one after the other (R72, R144, R145) -/

/-- The buffer after bits stored at the cursor, each followed by an advance. -/
def storeBits : List Bool → BitBuffer → BitBuffer
  | [], b => b
  | v :: vs, b => storeBits vs (b.setBit v).incBit

theorem storeBits_pos (vs : List Bool) {b : BitBuffer} (hend : b.pos + vs.length ≤ 128) :
    (storeBits vs b).pos = b.pos + vs.length := by
  induction vs generalizing b with
  | nil => rfl
  | cons v vs ih =>
    rw [List.length_cons] at hend
    have hnext := setBit_incBit_pos v (b := b) (by omega)
    rw [storeBits, ih (by omega), hnext, List.length_cons]
    omega

/-- The bits passed are those stored, every other bit is the one that stood there. -/
theorem bitAt_storeBits (vs : List Bool) {b : BitBuffer} (hw : Memory.wf b.buf = true) (hend : b.pos + vs.length ≤ 128)
    (p : Nat) :
    bitAt (storeBits vs b).buf p =
      if b.pos ≤ p ∧ p < b.pos + vs.length then vs.getD (p - b.pos) false else bitAt b.buf p := by
  induction vs generalizing b with
  | nil => rw [storeBits, List.length_nil, if_neg (by omega)]
  | cons v vs ih =>
    rw [List.length_cons] at hend ⊢
    have hlt : b.pos < 128 := by omega
    have hnext := setBit_incBit_pos v hlt
    rw [storeBits, ih (by rw [incBit_buf]; exact setBit_wf v hw) (by omega), hnext, incBit_buf, bitAt_setBit v hw hlt]
    by_cases hp : p = b.pos
    · rw [if_neg (by omega), if_pos hp, if_pos (by omega), hp, Nat.sub_self, List.getD_cons_zero]
    · by_cases hin : b.pos ≤ p ∧ p < b.pos + (vs.length + 1)
      · have hindex : p - b.pos = p - (b.pos + 1) + 1 := by omega
        rw [if_pos (by omega), if_pos hin, hindex, List.getD_cons_succ]
      · rw [if_neg (by omega), if_neg hp, if_neg hin]

theorem bitAt_eq_wireBit (m : Memory) (k : Nat) (i : BitVec 3) : bitAt m (8 * k + i.toNat) = wireBit (memRead m k) i := by
  have hi := i.isLt
  have hdiv : (8 * k + i.toNat) / 8 = k := by omega
  have hmod : (8 * k + i.toNat) % 8 = i.toNat := by omega
  rw [bitAt, hdiv, hmod, wireBit]

theorem length_byteBits (v : Byte) : (byteBits v).length = 8 := rfl

theorem byteBits_getD (v : Byte) (i : BitVec 3) : (byteBits v).getD i.toNat false = wireBit v i := by
  have hi := i.isLt
  simp [byteBits, List.getD_eq_getElem?_getD, hi]

/-- The bits of a byte stored from bit 0 of byte `k` on write that byte and no other, and the cursor is at the next one. -/
theorem storeBits_byteBits (v : Byte) {b : BitBuffer} (hw : Memory.wf b.buf = true) (hbit : b.bit = 0)
    (hlt : b.byte.toNat < 16) :
    (storeBits (byteBits v) b).byte.toNat = b.byte.toNat + 1 ∧
      ∀ j, memRead (storeBits (byteBits v) b).buf j = if j = b.byte.toNat then v else memRead b.buf j := by
  have hpos : b.pos = 8 * b.byte.toNat := by rw [BitBuffer.pos, hbit]; rfl
  have hend : b.pos + (byteBits v).length ≤ 128 := by rw [length_byteBits]; omega
  have hbits := bitAt_storeBits (byteBits v) hw hend
  rw [length_byteBits, hpos] at hbits
  refine ⟨(BitBuffer.cursor_of_pos (n := b.byte.toNat + 1) ?_).2, fun j => ?_⟩
  · rw [storeBits_pos _ hend, length_byteBits]
    omega
  · split
    next hj =>
      refine eq_of_wireBit fun i => ?_
      have hi := i.isLt
      rw [← bitAt_eq_wireBit, hbits, hj, if_pos (by omega), Nat.add_sub_cancel_left, byteBits_getD]
    next hj =>
      refine memRead_eq_of_bitAt fun p hp => ?_
      rw [hbits, if_neg (by omega)]

/-! ### What reception keeps -/

/-- `u` comes after `s` in reception: neither the configuration, nor the address, nor the mark of a refused input, nor the
length of the frame pending has changed. -/
structure Follows (s u : State) : Prop where
  cfg : u.cfg = s.cfg
  laddr : u.laddr = s.laddr
  mark : u.refusedMark = s.refusedMark
  len : u.tx.len = s.tx.len

theorem Follows.trans {s t u : State} (h : Follows s t) (h' : Follows t u) : Follows s u :=
  ⟨h'.cfg.trans h.cfg, h'.laddr.trans h.laddr, h'.mark.trans h.mark, h'.len.trans h.len⟩

theorem follows_of_step {s u : State} (hrun : sameRun s u) (hl : u.laddr = s.laddr) (hlen : u.tx.len = s.tx.len) :
    Follows s u := by
  obtain ⟨hcfg, -, hmark, -⟩ := hrun
  exact ⟨hcfg, hl, hmark, hlen⟩

/-- A run of reception, the protocol invariant kept. -/
structure Receives (is : List Instr) (s u : State) (ns : List Notif) : Prop where
  run : Runs is s u ns
  proto : ProtoInv u
  follows : Follows s u

theorem Receives.append {is js : List Instr} {s t u : State} {ns ms : List Notif} (h : Receives is s t ns)
    (h' : Receives js t u ms) : Receives (is ++ js) s u (ns ++ ms) :=
  ⟨h.run.append h'.run, h'.proto, h.follows.trans h'.follows⟩

/-- One step of reception. -/
theorem receives_step {i : Instr} {s u : State} (h : ProtoInv s) (hi : i.isInputOp = true) (hu : exec i s = .next u)
    (hf : Follows s u) : Receives [i] s u u.out.notify.toList := by
  have hone := (Runs.nil u).cons hu
  rw [List.append_nil] at hone
  exact ⟨hone, exec_protoInv hi h hu, hf⟩

theorem receives_silent {i : Instr} {s u : State} (h : ProtoInv s) (hi : i.isInputOp = true) (hu : exec i s = .next u)
    (hf : Follows s u) (hn : u.out.notify = none) : Receives [i] s u [] := by
  have hone := receives_step h hi hu hf
  rwa [hn] at hone

/-! ### A capture in time -/

/-- A capture is admitted when an edge is armed and it comes no later than the timeout. -/
theorem admits_of_le {s : State} {t : Tick} (hedge : s.armEdge ≠ .none) (hle : t.toNat ≤ s.armTmo.toNat) :
    contractAdmits s (.evCapture t) = true := by
  simp only [contractAdmits, isLateCapture, Bool.and_eq_true, decide_eq_true_eq, Bool.not_eq_true', Bool.and_eq_false_iff,
    decide_eq_false_iff_not, not_lt]
  exact ⟨hedge, Or.inr hle⟩

/-- The arm shadow says that an edge is awaited for `t` ticks. -/
structure Awaits (t : Tick) (s : State) : Prop where
  edge : s.armEdge ≠ .none
  tmo : s.armTmo = t

theorem awaits_of_entry {s u : State} {drive : Option Level} {edge : Edge} {t : Tick} (he : edge ≠ .none)
    (h : producedEntry s u drive edge (some t)) : Awaits t u := by
  obtain ⟨-, -, -, hedge, -, htmo⟩ := h
  exact ⟨hedge ▸ he, htmo⟩

theorem Awaits.admits {s : State} {cap t : Tick} (h : Awaits cap s) (hle : t.toNat ≤ cap.toNat) :
    contractAdmits s (.evCapture t) = true := admits_of_le h.edge (h.tmo.symm ▸ hle)

/-! ### A valid bit (R119) -/

/-- What a valid bit's two durations give: the class of the low, the total, and both in time. -/
theorem slotValid_elim {c : Cfg} (hc : cfgWf c = true) {b : Bool} {slot : Tick × Tick} (h : slotValid c b slot = true) :
    classifyLow c slot.1 ≠ .invalid ∧ decide (classifyLow c slot.1 = .data1) = b ∧
      isValidTotal c (dataSymbol b) slot.1 slot.2 = true ∧ slot.1.toNat ≤ (toTick (capDataLow c)).toNat ∧
      slot.2.toNat ≤ (toTick (capDataHigh c)).toNat := by
  simp only [slotValid, Bool.and_eq_true, decide_eq_true_eq] at h
  obtain ⟨hclass, htotal⟩ := h
  have hne : classifyLow c slot.1 ≠ .invalid := by rw [hclass]; cases b <;> decide
  have hbit : decide (classifyLow c slot.1 = .data1) = b := by rw [hclass]; cases b <;> rfl
  have hlow : isValidLow c (dataSymbol b) slot.1 = true := hbit ▸ isValidLow_of_classifyLow hne
  obtain ⟨hcapLow, hcapHigh, -⟩ := capsNeverCutAValidPhase c (dataSymbol b) slot.1 slot.2 hc
  have hlowTime := hcapLow hlow
  have hhighTime := hcapHigh hlow htotal
  refine ⟨hne, hbit, htotal, ?_, ?_⟩
  · cases b <;> exact hlowTime
  · cases b <;> exact hhighTime

/-- The states that await the low of a header or data bit. -/
def lowStates : List PState := [.rxHeaderInitLow, .rxHeaderDestLow, .rxDataLow]

/-- Ready for the low of a bit, in one of the states `ps`. -/
structure AtLow (ps : List PState) (s : State) : Prop where
  proto : ProtoInv s
  state : s.state ∈ ps
  awaits : Awaits (toTick (capDataLow s.cfg)) s

/-- Where the low of a header or data bit is awaited, the cursor is in the buffer (R76). -/
theorem AtLow.byte_lt {s : State} (h : AtLow lowStates s) : s.rx.bb.byte.toNat < 16 := by
  refine h.proto.rxAt.byte_lt ?_
  have hstate := h.state
  simp only [lowStates, List.mem_cons, List.not_mem_nil, or_false] at hstate ⊢
  tauto

section OneBit

variable {s : State} (hc : cfgWf s.cfg = true) (h : AtLow lowStates s) {b : Bool} {slot : Tick × Tick}
  (hv : slotValid s.cfg b slot = true)
include hc h hv

/-- The two captures of a header or data bit, for its low state, its high state, and the low states that may follow. -/
theorem receives_bit_in {p high : PState} {stop : BitVec 3} {last more : PState} (hs : s.state = p)
    (hlow : (p, high) ∈ [(PState.rxHeaderInitLow, PState.rxHeaderInitHigh), (.rxHeaderDestLow, .rxHeaderDestHigh),
      (.rxDataLow, .rxDataHigh)])
    (hhigh : (high, stop, last, more) ∈
      [(PState.rxHeaderInitHigh, (4 : BitVec 3), PState.rxHeaderDestLow, PState.rxHeaderInitLow),
        (.rxHeaderDestHigh, 0, .rxEomLow, .rxHeaderDestLow), (.rxDataHigh, 0, .rxEomLow, .rxDataLow)])
    (hnext : (if (s.rx.bb.setBit b).incBit.bit = stop then last else more) ∈
      if (s.rx.bb.setBit b).incBit.bit = 0 then [.rxEomLow] else lowStates) :
    ∃ u, Receives (slotOps slot) s u [] ∧ u.rx.bb = (s.rx.bb.setBit b).incBit ∧
      AtLow (if u.rx.bb.bit = 0 then [.rxEomLow] else lowStates) u := by
  obtain ⟨hne, hbit, htotal, hlowTime, hhighTime⟩ := slotValid_elim hc hv
  obtain ⟨m, hm, hmrun, -, hmvalid⟩ :=
    receivedBitIsStored s slot.1 high (h.awaits.admits hlowTime) (hs ▸ hlow)
  obtain ⟨hmstate, hmrx, hmtx, hml, hmprod, -, hmnotify, -⟩ := hmvalid hne
  rw [hbit] at hmrx
  have hmrec := receives_silent h.proto rfl hm (follows_of_step hmrun hml (by rw [hmtx])) hmnotify
  have hmcfg := hmrec.follows.cfg
  have hmtotal : isValidTotal m.cfg (dataSymbol m.rx.bb.getBit) m.rx.low slot.2 = true := by
    simp only [hmrx, hmcfg, getBit_setBit b h.proto.buffers.1 h.byte_lt]
    exact htotal
  obtain ⟨u, hu, hurun, -, huvalid⟩ :=
    receivedBitTotalIsChecked m slot.2 stop last more ((awaits_of_entry (by decide) hmprod).admits hhighTime)
      (hmstate ▸ hhigh)
  obtain ⟨hustate, hurx, hutx, hul, huprod, -, hunotify, -⟩ := huvalid hmtotal
  have hurec := receives_silent hmrec.proto rfl hu (follows_of_step hurun hul (by rw [hutx])) hunotify
  have hubb : u.rx.bb = (s.rx.bb.setBit b).incBit := by rw [hurx, hmrx]
  refine ⟨u, hmrec.append hurec, hubb, hurec.proto, ?_, ?_⟩
  · rw [hustate, hmrx, hubb]
    exact hnext
  · rw [hurec.follows.cfg]
    exact awaits_of_entry (by decide) huprod

/-- A valid header or data bit is stored, and the cursor advances: the EOM bit follows the last bit of a byte, another bit
follows any other. -/
theorem receives_bit :
    ∃ u, Receives (slotOps slot) s u [] ∧ u.rx.bb = (s.rx.bb.setBit b).incBit ∧
      AtLow (if u.rx.bb.bit = 0 then [.rxEomLow] else lowStates) u := by
  have hplace := h.proto.rxAt
  have hstate := h.state
  simp only [lowStates, List.mem_cons, List.not_mem_nil, or_false] at hstate
  rcases hstate with hs | hs | hs
  · rw [hs] at hplace
    obtain ⟨-, hhalf, -⟩ := hplace
    have hne : (s.rx.bb.setBit b).incBit.bit ≠ 0 := by
      intro h0
      obtain ⟨hinc, -⟩ := incBit_of_lt (b := s.rx.bb.setBit b) (by rw [setBit_byte]; exact h.byte_lt)
        (by rw [setBit_bit]; omega)
      rw [h0] at hinc
      exact absurd hinc (by simp)
    refine receives_bit_in hc h hv (high := .rxHeaderInitHigh) (stop := 4) (last := .rxHeaderDestLow)
      (more := .rxHeaderInitLow) hs (by decide) (by decide) ?_
    rw [if_neg hne]
    split <;> decide
  · exact receives_bit_in hc h hv (high := .rxHeaderDestHigh) (stop := 0) (last := .rxEomLow)
      (more := .rxHeaderDestLow) hs (by decide) (by decide) (by split <;> decide)
  · exact receives_bit_in hc h hv (high := .rxDataHigh) (stop := 0) (last := .rxEomLow)
      (more := .rxDataLow) hs (by decide) (by decide) (by split <;> decide)

end OneBit

/-- The valid bits up to the end of a byte, by induction over the bits. -/
theorem receives_bits {c : Cfg} (hc : cfgWf c = true) {bits : List Bool} {slots : List (Tick × Tick)}
    (hv : List.Forall₂ (fun slot b => slotValid c b slot = true) slots bits) {s : State} (hs : s.cfg = c)
    (h : AtLow lowStates s) (hbits : bits ≠ []) (hend : s.rx.bb.bit.toNat + bits.length = 8) :
    ∃ u, Receives (slots.flatMap slotOps) s u [] ∧ u.rx.bb = storeBits bits s.rx.bb ∧ AtLow [.rxEomLow] u := by
  induction hv generalizing s with
  | nil => exact absurd rfl hbits
  | @cons slot b slots bits hslot hrest ih =>
    obtain ⟨m, hmrec, hmbb, hmlow⟩ := receives_bit (hs ▸ hc) h (hs ▸ hslot)
    have hlt := h.byte_lt
    have hbit := s.rx.bb.bit.isLt
    have hcursor : m.rx.bb.pos = s.rx.bb.pos + 1 := by
      rw [hmbb]
      exact setBit_incBit_pos b (by rw [BitBuffer.pos]; omega)
    rw [BitBuffer.pos, BitBuffer.pos] at hcursor
    rw [List.length_cons] at hend
    rw [List.flatMap_cons, storeBits, ← hmbb]
    have hzero : m.rx.bb.bit = 0 ↔ m.rx.bb.bit.toNat = 0 := BitVec.toNat_inj.symm
    by_cases hlast : bits = []
    · subst hlast
      cases hrest
      rw [List.length_nil] at hend
      rw [if_pos (hzero.2 (by omega))] at hmlow
      exact ⟨m, hmrec.append ⟨Runs.nil m, hmrec.proto, rfl, rfl, rfl, rfl⟩, rfl, hmlow⟩
    · have hpos := List.length_pos_iff.2 hlast
      have hmbit := m.rx.bb.bit.isLt
      rw [if_neg fun h0 => by have := hzero.1 h0; omega] at hmlow
      obtain ⟨u, hurec, hubb, hulow⟩ := ih (hmrec.follows.cfg.trans hs) hmlow hlast (by omega)
      exact ⟨u, hmrec.append hurec, hubb, hulow⟩

end Sys2Proof.Machine
end

section
/-! SUPPORT. PROOFS. State events (44_state_events.md), whole frames received: the bytes with their EOM bits and ACK slots, by
induction over the bytes, the start bit before them, and how many events there are. -/

namespace Sys2Proof.Machine

/-! ### The bytes received so far -/

/-- The buffer holds the first `n` bytes, and its cursor is at the next. -/
structure Holds (bytes : List Byte) (n : Nat) (b : BitBuffer) : Prop where
  byte : b.byte.toNat = n
  read : ∀ j < n, memRead b.buf j = bytes.getD j 0

theorem Holds.byte_stored {bytes : List Byte} {n : Nat} {b : BitBuffer} (h : Holds bytes n b)
    (hw : Memory.wf b.buf = true) (hbit : b.bit = 0) (hlt : b.byte.toNat < 16) :
    Holds bytes (n + 1) (storeBits (byteBits (bytes.getD n 0)) b) := by
  obtain ⟨hbyte, hread⟩ := storeBits_byteBits (bytes.getD n 0) hw hbit hlt
  refine ⟨by rw [hbyte, h.byte], fun j hj => ?_⟩
  rw [hread, h.byte]
  split
  next heq => rw [heq]
  next hne => exact h.read j (by omega)

/-- The destination of a frame, from its first byte (R73). -/
def frameDest (bytes : List Byte) : BitVec 4 := (bytes.getD 0 0).extractLsb' 0 4

theorem Holds.dest {bytes : List Byte} {n : Nat} {b : BitBuffer} (h : Holds bytes n b) (hn : 0 < n) :
    b.dest = frameDest bytes := by
  rw [BitBuffer.dest, h.read 0 hn, frameDest]

/-- With the whole frame in the buffer, the snapshot gives its length and its bytes (R111, R148). -/
theorem Holds.snapshot {bytes : List Byte} {b : BitBuffer} (h : Holds bytes bytes.length b) :
    b.snapshot = (BitVec.ofNat 5 bytes.length, padded bytes) := by
  have hbyte : b.byte = BitVec.ofNat 5 bytes.length := by rw [← h.byte, BitVec.ofNat_toNat, BitVec.setWidth_eq]
  have hbytes : b.snapshotBytes = padded bytes := by
    refine List.map_congr_left fun j _ => ?_
    rw [h.byte]
    split
    next hj => exact h.read j hj
    next hj => rw [List.getD_eq_default _ _ (by omega)]
  rw [BitBuffer.snapshot, hbyte, hbytes]

/-- What the device with address `a` is given of a whole frame (R86). -/
def delivery (a : Nat) (bytes : List Byte) : List Notif :=
  if (frameDest bytes).toNat = a ∨ (frameDest bytes).toNat = 15 then
    [.rxFrame (BitVec.ofNat 5 bytes.length) (padded bytes)]
  else []

/-! ### The EOM bit and the ACK slot -/

/-- The two captures of a valid EOM bit set the flag and leave the buffer. -/
theorem receives_eom {s : State} (hc : cfgWf s.cfg = true) (h : AtLow [.rxEomLow] s) {last : Bool} {slot : Tick × Tick}
    (hv : slotValid s.cfg last slot = true) :
    ∃ u, Receives (slotOps slot) s u [] ∧ u.state = .rxAckLow ∧ u.rx.bb = s.rx.bb ∧ u.rx.eom = last := by
  obtain ⟨hne, hbit, htotal, hlowTime, hhighTime⟩ := slotValid_elim hc hv
  obtain ⟨hlow, -⟩ := eomBitIsReceived s slot.1 (h.awaits.admits hlowTime)
  obtain ⟨m, hm, hmrun, -, hmvalid⟩ := hlow (List.mem_singleton.1 h.state)
  obtain ⟨hmstate, hmrx, hmtx, hml, hmprod, -, hmnotify, -⟩ := hmvalid hne
  rw [hbit] at hmrx
  have hmrec := receives_silent h.proto rfl hm (follows_of_step hmrun hml (by rw [hmtx])) hmnotify
  obtain ⟨-, hhigh⟩ := eomBitIsReceived m slot.2 ((awaits_of_entry (by decide) hmprod).admits hhighTime)
  obtain ⟨u, hu, hurun, -, huvalid⟩ := hhigh hmstate
  obtain ⟨hustate, hurx, hutx, hul, -, -, hunotify, -⟩ :=
    huvalid (by rw [hmrx, hmrec.follows.cfg]; exact htotal)
  have hurec := receives_silent hmrec.proto rfl hu (follows_of_step hurun hul (by rw [hutx])) hunotify
  exact ⟨u, hmrec.append hurec, hustate, by rw [hurx, hmrx], by rw [hurx, hmrx]⟩

/-- The ACK sample with the line not low where the frame is a broadcast: no NAK is noted. -/
theorem receives_sample {s : State} (h : ProtoInv s) (hs : s.state = .rxAckLow) {line : Level}
    (hline : s.rx.bb.dest.toNat = 15 → line = released) :
    ∃ u, Receives [.evTimeout line] s u [] ∧ u.state = .rxAckVerify ∧ u.rx = { s.rx with bnack := false } := by
  obtain ⟨hlow, -⟩ := ackSlotOfReceivedByte s (h.armed (by rw [hs]; rfl))
  obtain ⟨u, hu, hrun, hstate, hrx, htx, hl, -, -, hnotify, -⟩ := hlow line hs
  have hnak : decide (s.rx.bb.dest.toNat = 15 ∧ line = pulledLow) = false := by
    refine decide_eq_false fun ⟨hdest, hpulled⟩ => ?_
    rw [hline hdest] at hpulled
    cases hpulled
  exact ⟨u, receives_silent h rfl hu (follows_of_step hrun hl (by rw [htx])) hnotify, hstate, by rw [hrx, hnak]⟩

/-- After the last byte of a frame, the end of the hold delivers it if it is for the device, and the end of the bit leads to
Idle. -/
theorem receives_end {s : State} (h : ProtoInv s) (hs : s.state = .rxAckVerify) (hnak : s.rx.bnack = false)
    (heom : s.rx.eom = true) (hlen : s.tx.len = 0) {bytes : List Byte} (hholds : Holds bytes bytes.length s.rx.bb)
    (hpos : 0 < bytes.length) :
    ∃ u, Receives [.evTimeout released, .evTimeout released] s u (delivery s.laddr.toNat bytes) ∧ u.state = .idle := by
  obtain ⟨-, hverify, -⟩ := ackSlotOfReceivedByte s (h.armed (by rw [hs]; rfl))
  obtain ⟨m, hm, hmrun, -, hmrest⟩ := hverify released hs
  obtain ⟨hmstate, hmrx, hmtx, hml, -, -, hmfinal, -⟩ := hmrest hnak
  obtain ⟨-, hmnotify⟩ := hmfinal (Or.inl heom)
  have hmrec := receives_step h rfl hm (follows_of_step hmrun hml (by rw [hmtx]))
  obtain ⟨hbyte, hbytes⟩ := Prod.ext_iff.1 hholds.snapshot
  have hdelivery : m.out.notify.toList = delivery s.laddr.toNat bytes := by
    change s.rx.bb.byte = _ at hbyte
    change s.rx.bb.snapshotBytes = _ at hbytes
    rw [hmnotify, hholds.dest hpos, hbyte, hbytes, delivery]
    split <;> rfl
  obtain ⟨-, -, -, hfinish⟩ := ackSlotOfReceivedByte m (hmrec.proto.armed (by rw [hmstate]; rfl))
  obtain ⟨u, hu, hurun, hufinal, -⟩ := hfinish released hmstate
  obtain ⟨⟨-, hutx, hul, huidle, -⟩, -, hunotify, -⟩ := hufinal (Or.inl (by rw [hmrx]; exact heom))
  obtain ⟨hustate, -⟩ := huidle (hmrec.follows.len.trans hlen)
  have hurec := receives_silent hmrec.proto rfl hu (follows_of_step hurun hul (by rw [hutx])) hunotify
  have hboth := hmrec.append hurec
  rw [hdelivery, List.append_nil] at hboth
  exact ⟨u, hboth, hustate⟩

/-- After another byte, the next one's falling edge in time leads to its first bit. -/
theorem receives_edge {s : State} (h : ProtoInv s) (hs : s.state = .rxAckVerify) (hnak : s.rx.bnack = false)
    (heom : s.rx.eom = false) (hmore : s.rx.bb.byte.toNat < 16) {gap : Tick}
    (hgap : gap.toNat ≤ (toTick (capDataHigh s.cfg)).toNat) :
    ∃ u, Receives [.evTimeout released, .evCapture gap] s u [] ∧ AtLow lowStates u ∧ u.rx.bb = s.rx.bb := by
  obtain ⟨-, hverify, -⟩ := ackSlotOfReceivedByte s (h.armed (by rw [hs]; rfl))
  obtain ⟨m, hm, hmrun, -, hmrest⟩ := hverify released hs
  obtain ⟨hmstate, hmrx, hmtx, hml, -, -, -, hmgo⟩ := hmrest hnak
  obtain ⟨hmprod, hmnotify⟩ := hmgo heom hmore
  have hmrec := receives_silent h rfl hm (follows_of_step hmrun hml (by rw [hmtx])) hmnotify
  obtain ⟨-, -, hcapture, -⟩ := ackSlotOfReceivedByte m (hmrec.proto.armed (by rw [hmstate]; rfl))
  obtain ⟨u, hu, hurun, hustate, hurx, hutx, hul, huprod, -, hunotify, -⟩ :=
    hcapture gap hmstate ((awaits_of_entry (by decide) hmprod).admits hgap)
  have hurec := receives_silent hmrec.proto rfl hu (follows_of_step hurun hul (by rw [hutx])) hunotify
  refine ⟨u, hmrec.append hurec, ⟨hurec.proto, by rw [hustate]; decide, ?_⟩, by rw [hurx, hmrx]⟩
  rw [hurec.follows.cfg]
  exact awaits_of_entry (by decide) huprod

/-! ### One byte -/

/-- Ready for bit 0 of byte `n`, the bytes before it in the buffer. -/
structure AtByte (bytes : List Byte) (n : Nat) (s : State) : Prop where
  low : AtLow lowStates s
  bit : s.rx.bb.bit = 0
  holds : Holds bytes n s.rx.bb

/-- What a valid seen byte gives: eight valid bits and the EOM bit, the next edge in time, no NAK of a broadcast. -/
theorem seenByteValid_elim {c : Cfg} {broadcast last : Bool} {b : SeenByte}
    (h : seenByteValid c broadcast last b = true) :
    (∃ data slot, b.slots = data ++ [slot] ∧ slotValid c last slot = true ∧
      List.Forall₂ (fun slot v => slotValid c v slot = true) data (byteBits b.value)) ∧
      b.gap.toNat ≤ (toTick (capDataHigh c)).toNat ∧ (broadcast = true → b.line = released) := by
  simp only [seenByteValid, Bool.and_eq_true, decide_eq_true_eq, List.all_eq_true, Bool.not_eq_true',
    Bool.and_eq_false_iff] at h
  obtain ⟨⟨⟨hlen, hzip⟩, hgap⟩, hline⟩ := h
  have hslots : List.Forall₂ (fun slot v => slotValid c v slot = true) b.slots (byteBits b.value ++ [last]) :=
    List.Forall₂.flip (List.forall₂_iff_zip.2 ⟨by rw [List.length_append, length_byteBits, hlen]; rfl, hzip _⟩)
  have hdata := List.forall₂_take_append _ _ _ hslots
  have heom := List.forall₂_drop_append _ _ _ hslots
  refine ⟨?_, hgap, fun hb => ?_⟩
  · obtain ⟨slot, hslot⟩ := List.length_eq_one_iff.1 heom.length_eq
    rw [hslot] at heom
    refine ⟨_, slot, ?_, (List.forall₂_cons.1 heom).1, hdata⟩
    rw [← hslot, List.take_append_drop]
  · rcases hline with hfollower | hfree
    · rw [hb] at hfollower
      cases hfollower
    · rw [Bool.not_eq_false'] at hfree
      exact hfree

theorem slots_length {c : Cfg} {broadcast last : Bool} {b : SeenByte} (h : seenByteValid c broadcast last b = true) :
    b.slots.length = 9 := by
  simp only [seenByteValid, Bool.and_eq_true, decide_eq_true_eq] at h
  obtain ⟨⟨⟨hlen, -⟩, -⟩, -⟩ := h
  exact hlen

/-- The nine bits of a seen byte and its ACK sample: the byte is in the buffer, and the end of the hold is awaited. -/
theorem receives_byte {s : State} (hc : cfgWf s.cfg = true) {bytes : List Byte} {n : Nat} (h : AtByte bytes n s)
    {last : Bool} {b : SeenByte} (hb : b.value = bytes.getD n 0)
    (hv : seenByteValid s.cfg (decide ((frameDest bytes).toNat = 15)) last b = true) :
    ∃ u, Receives (b.slots.flatMap slotOps ++ [.evTimeout b.line]) s u [] ∧ u.state = .rxAckVerify ∧
      u.rx.bnack = false ∧ u.rx.eom = last ∧ u.rx.bb.bit = 0 ∧ Holds bytes (n + 1) u.rx.bb := by
  obtain ⟨⟨data, slot, hslots, hlast, hdata⟩, -, hline⟩ := seenByteValid_elim hv
  have hbits : byteBits b.value ≠ [] := List.length_pos_iff.1 (by rw [length_byteBits]; decide)
  obtain ⟨m, hmrec, hmbb, hmlow⟩ := receives_bits hc hdata rfl h.low hbits (by rw [h.bit]; rfl)
  have hholds := h.holds.byte_stored h.low.proto.buffers.1 h.bit h.low.byte_lt
  rw [← hb, ← hmbb] at hholds
  have hmplace := hmlow.proto.rxAt
  rw [List.mem_singleton.1 hmlow.state] at hmplace
  obtain ⟨hmbit, -⟩ := hmplace
  have hmcfg := hmrec.follows.cfg
  obtain ⟨v, hvrec, hvstate, hvbb, hveom⟩ := receives_eom (hmcfg ▸ hc) hmlow (hmcfg ▸ hlast)
  rw [← hvbb] at hholds hmbit
  obtain ⟨u, hurec, hustate, hurx⟩ := receives_sample hvrec.proto hvstate (line := b.line) fun hdest => by
    rw [hholds.dest (Nat.succ_pos n)] at hdest
    exact hline (decide_eq_true hdest)
  have hrec := (hmrec.append hvrec).append hurec
  rw [List.append_nil, List.append_nil] at hrec
  refine ⟨u, ?_, hustate, by rw [hurx], by rw [hurx, ← hveom], by rw [hurx]; exact hmbit, by rw [hurx]; exact hholds⟩
  rw [hslots, List.flatMap_append]
  exact hrec

/-! ### All the bytes of a frame -/

/-- The bytes from byte `n` of a frame on, by induction over them: the frame is delivered once if it is for the device, and
the block is in Idle. -/
theorem receives_bytes {c : Cfg} (hc : cfgWf c = true) {bytes : List Byte} (hmax : bytes.length ≤ 16)
    {frame : List SeenByte} (hne : frame ≠ [])
    (hv : seenBytesValid c (decide ((frameDest bytes).toNat = 15)) frame = true) {n : Nat}
    (hrest : bytes.drop n = frame.map SeenByte.value) {s : State} (hs : s.cfg = c) (hlen : s.tx.len = 0)
    (h : AtByte bytes n s) :
    ∃ u, Receives (seenBytesOps frame) s u (delivery s.laddr.toNat bytes) ∧ u.state = .idle := by
  induction frame generalizing n s with
  | nil => exact absurd rfl hne
  | cons b rest ih =>
    rw [seenBytesValid, Bool.and_eq_true] at hv
    obtain ⟨hbyte, hbytes⟩ := hv
    have hcount : bytes.length - n = rest.length + 1 := by
      rw [← List.length_drop, hrest, List.length_map, List.length_cons]
    have hvalue : b.value = bytes.getD n 0 := by
      rw [List.getD_eq_getElem?_getD, ← Nat.add_zero n, ← List.getElem?_drop, hrest]
      rfl
    have hdrop : bytes.drop (n + 1) = rest.map SeenByte.value := by
      rw [← List.drop_drop, hrest]
      rfl
    obtain ⟨m, hmrec, hmstate, hmnak, hmeom, hmbit, hmholds⟩ := receives_byte (hs ▸ hc) h hvalue (hs ▸ hbyte)
    have hmcfg := hmrec.follows.cfg.trans hs
    have hmlen := hmrec.follows.len.trans hlen
    have hmaddr := hmrec.follows.laddr
    obtain ⟨-, hgap, -⟩ := seenByteValid_elim hbyte
    rw [seenBytesOps, seenByteOps]
    cases rest with
    | nil =>
      rw [List.length_nil] at hcount
      have hwhole : n + 1 = bytes.length := by omega
      obtain ⟨u, hurec, hustate⟩ :=
        receives_end hmrec.proto hmstate hmnak hmeom hmlen (hwhole ▸ hmholds) (by omega)
      have hrec := hmrec.append hurec
      rw [hmaddr] at hrec
      refine ⟨u, ?_, hustate⟩
      simpa [seenBytesOps] using hrec
    | cons next rest =>
      rw [List.length_cons] at hcount
      obtain ⟨v, hvrec, hvlow, hvbb⟩ :=
        receives_edge hmrec.proto hmstate hmnak hmeom (by rw [hmholds.byte]; omega) (hmcfg ▸ hgap)
      obtain ⟨u, hurec, hustate⟩ := ih (List.cons_ne_nil next rest) hbytes hdrop (hvrec.follows.cfg.trans hmcfg)
        (hvrec.follows.len.trans hmlen) ⟨hvlow, hvbb ▸ hmbit, hvbb ▸ hmholds⟩
      have hrec := (hmrec.append hvrec).append hurec
      rw [hvrec.follows.laddr, hmaddr] at hrec
      refine ⟨u, ?_, hustate⟩
      simpa using hrec

/-! ### The start bit -/

/-- A falling edge in Idle and a valid start bit lead to bit 0 of byte 0. -/
theorem receives_start {s : State} (hc : cfgWf s.cfg = true) (h : ProtoInv s) (hs : s.state = .idle)
    {low high : Tick} (hlow : isValidLow s.cfg .start low = true) (htotal : isValidTotal s.cfg .start low high = true)
    (edge : Tick) (bytes : List Byte) :
    ∃ u, Receives [.evCapture edge, .evCapture low, .evCapture high] s u [] ∧ AtByte bytes 0 u := by
  obtain ⟨hcapLow, hcapHigh, -⟩ := capsNeverCutAValidPhase s.cfg .start low high hc
  have hplace := h.rxAt
  rw [hs] at hplace
  obtain ⟨hbit, hbyte, -⟩ := hplace
  have hadmits : contractAdmits s (.evCapture edge) = true := by
    obtain ⟨⟨-, -, -, -, -, htv, -, hedge, -⟩, -⟩ := h
    rw [hs] at htv hedge
    simp [contractAdmits, isLateCapture, htv, hedge, stateTimeout, stateEdge]
  obtain ⟨hidle, -⟩ := fallingEdgeStartsReception s edge hadmits
  obtain ⟨m, hm, hmstate, hmrx, hmtx, hml, hmprod, ⟨-, hmnotify, -⟩, hmrun⟩ := hidle hs
  have hmrec := receives_silent h rfl hm (follows_of_step hmrun hml (by rw [hmtx])) hmnotify
  have hmcfg := hmrec.follows.cfg
  obtain ⟨hstartLow, -⟩ :=
    startBitIsValidated m low ((awaits_of_entry (by decide) hmprod).admits (hcapLow hlow))
  obtain ⟨v, hv, hvrun, hvvalid, -⟩ := hstartLow hmstate
  obtain ⟨hvstate, hvrx, hvtx, hvl, hvprod, -, hvnotify, -⟩ := hvvalid (hmcfg ▸ hlow)
  have hvrec := receives_silent hmrec.proto rfl hv (follows_of_step hvrun hvl (by rw [hvtx])) hvnotify
  have hvcfg := hvrec.follows.cfg.trans hmcfg
  obtain ⟨-, hstartHigh⟩ := startBitIsValidated v high
    ((awaits_of_entry (by decide) hvprod).admits (hmcfg.symm ▸ hcapHigh hlow htotal))
  obtain ⟨u, hu, hurun, huvalid, -⟩ := hstartHigh hvstate
  obtain ⟨hustate, hurx, hutx, hul, huprod, -, hunotify, -⟩ := huvalid (by rw [hvrx, hvcfg]; exact htotal)
  have hurec := receives_silent hvrec.proto rfl hu (follows_of_step hurun hul (by rw [hutx])) hunotify
  have hbb : u.rx.bb = s.rx.bb := by rw [hurx, hvrx, hmrx]
  refine ⟨u, (hmrec.append hvrec).append hurec, ⟨hurec.proto, by rw [hustate]; decide, ?_⟩, hbb ▸ hbit, ?_,
    fun j hj => absurd hj (Nat.not_lt_zero j)⟩
  · rw [hurec.follows.cfg]
    exact awaits_of_entry (by decide) huprod
  · rw [hbb, hbyte]
    rfl

/-! ### How many events a frame has -/

/-- The captures of a list of operations. -/
def captures (is : List Instr) : Nat := (is.filter (fun i => match i with | .evCapture _ => true | _ => false)).length

/-- The timeouts of a list of operations. -/
def timeouts (is : List Instr) : Nat := (is.filter (fun i => match i with | .evTimeout _ => true | _ => false)).length

theorem captures_append (is js : List Instr) : captures (is ++ js) = captures is + captures js := by
  rw [captures, List.filter_append, List.length_append, captures, captures]

theorem timeouts_append (is js : List Instr) : timeouts (is ++ js) = timeouts is + timeouts js := by
  rw [timeouts, List.filter_append, List.length_append, timeouts, timeouts]

theorem captures_slots (slots : List (Tick × Tick)) : captures (slots.flatMap slotOps) = 2 * slots.length := by
  induction slots with
  | nil => rfl
  | cons slot slots ih =>
    have htwo : captures (slotOps slot) = 2 := rfl
    rw [List.flatMap_cons, captures_append, ih, htwo, List.length_cons]
    omega

theorem timeouts_slots (slots : List (Tick × Tick)) : timeouts (slots.flatMap slotOps) = 0 := by
  induction slots with
  | nil => rfl
  | cons slot slots ih =>
    have hnone : timeouts (slotOps slot) = 0 := rfl
    rw [List.flatMap_cons, timeouts_append, ih, hnone]

/-- A byte has the 18 captures of its bits and two timeouts; the next byte's falling edge is one capture more, the end of
the last bit one timeout more. -/
theorem events_of_byte {b : SeenByte} (h : b.slots.length = 9) (last : Bool) :
    captures (seenByteOps last b) = (if last then 18 else 19) ∧ timeouts (seenByteOps last b) = if last then 3 else 2 := by
  rw [seenByteOps, captures_append, captures_append, captures_slots, h, timeouts_append, timeouts_append, timeouts_slots]
  cases last <;> exact ⟨rfl, rfl⟩

theorem events_of_bytes {c : Cfg} {broadcast : Bool} {frame : List SeenByte} (hne : frame ≠ [])
    (hv : seenBytesValid c broadcast frame = true) :
    captures (seenBytesOps frame) + 1 = 19 * frame.length ∧ timeouts (seenBytesOps frame) = 2 * frame.length + 1 := by
  induction frame with
  | nil => exact absurd rfl hne
  | cons b rest ih =>
    rw [seenBytesValid, Bool.and_eq_true] at hv
    obtain ⟨hbyte, hbytes⟩ := hv
    obtain ⟨hcaptures, htimeouts⟩ := events_of_byte (slots_length hbyte) rest.isEmpty
    rw [seenBytesOps, captures_append, timeouts_append, hcaptures, htimeouts, List.length_cons]
    cases rest with
    | nil => exact ⟨rfl, rfl⟩
    | cons next rest =>
      obtain ⟨hc, ht⟩ := ih (List.cons_ne_nil next rest) hbytes
      rw [List.isEmpty_cons, if_neg Bool.false_ne_true, if_neg Bool.false_ne_true]
      omega

/-! ### A valid frame (O59) -/

/-- Settles O59: the start bit, then the bytes by induction; the events are counted along the same list. -/
theorem validFrameIsReceived : Obligations.ValidFrameIsReceived := by
  intro s frame startEdge startLow startHigh hc hp hs hone hmax hlow htotal hv
  have hne : frame ≠ [] := List.length_pos_iff.1 hone
  obtain ⟨hcaptures, htimeouts⟩ := events_of_bytes hne hv
  obtain ⟨-, -, -, hlen, -⟩ := hp.1
  obtain ⟨m, hmrec, hmbyte⟩ := receives_start hc hp hs hlow htotal startEdge (frame.map SeenByte.value)
  obtain ⟨u, hurec, hustate⟩ := receives_bytes hc (by rw [List.length_map]; exact hmax) hne hv (n := 0) rfl
    hmrec.follows.cfg (hmrec.follows.len.trans (hlen hs)) hmbyte
  have hrec := hmrec.append hurec
  rw [hmrec.follows.laddr, List.nil_append] at hrec
  refine ⟨⟨?_, ?_⟩, ?_, u, hrec.run.after, hustate, hrec.follows.mark⟩
  · change captures (_ ++ seenBytesOps frame) = _
    rw [captures_append]
    change 3 + _ = _
    omega
  · change timeouts (_ ++ seenBytesOps frame) = _
    rw [timeouts_append, htimeouts]
    exact Nat.zero_add _
  · rw [seenFrameOps, hrec.run.notifs, delivery, List.length_map]
    rfl

end Sys2Proof.Machine
end

section
/-! SUPPORT. PROOFS. Control (45_control.md): the four commands, one after the other, and the account of submissions
(R325): each input operation settles it, so every run does. -/

namespace Sys2Proof.Machine

/-! ### CMD_ENABLE and CMD_DISABLE (R320, R321) -/

theorem sameRun_enter (p : PState) (line : Option Level) (s : State) : sameRun s (enter p line s.beginStep) :=
  ⟨enter_cfg .., enter_inputs .., enter_refusedMark .., enter_freeDraws ..⟩

/-- Settles O36: the Idle entry, or a step that only begins. -/
theorem enableEntersIdle : Obligations.EnableEntersIdle := by
  intro s
  have hb := begun_beginStep s
  refine ⟨fun hs => ⟨_, exec_cmdEnable_of_disabled hs, hb.enteredIdle none rfl rfl, hb.plainEntry none (by decide),
    sameRun_enter ..⟩, fun hs => ⟨_, exec_cmdEnable_of_enabled hs, sameRegs_beginStep s, quiet_beginStep s,
    sameRun_beginStep s⟩⟩

/-- Settles O37: the entry of Disabled, whose clears leave canonical buffers empty. -/
theorem disableClearsBothContexts : Obligations.DisableClearsBothContexts := by
  intro s hs
  have hrx : clearRx s.rx = ⟨⟨[], 0, 0⟩, false, false, 0, 0⟩ := by rw [clearRx, clear_eq_reset hs.1, resetBuffer]
  have htx : clearTx s.tx = ⟨⟨[], 0, 0⟩, 0, 0, false, false⟩ := by rw [clearTx, clear_eq_reset hs.2, resetBuffer]
  obtain ⟨hstate, hrx', htx', hladdr, hprod, hplain⟩ :=
    (begun_beginStep s).entered (p := .disabled) none (by decide) (by decide) hrx htx
  exact ⟨_, rfl, hstate, hrx', htx', hladdr, hprod, hplain, sameRun_enter ..⟩

/-! ### CMD_SET_ADDR (R322) -/

theorem sameRegs_reply (r : Result) (s : State) : sameRegs s (s.beginStep.reply r) := sameRegs_beginStep s

theorem sameRun_reply (r : Result) (s : State) : sameRun s (s.beginStep.reply r) := ⟨rfl, rfl, rfl, rfl⟩

theorem sameRegsBut_withLaddr (a : BitVec 8) (s : State) : sameRegsBut [.laddr] s { s with laddr := a } := by
  intro r hr
  cases r with
  | laddr => exact absurd (List.mem_singleton_self _) hr
  | _ => rfl

theorem exec_cmdSetAddr_of_legal {a : BitVec 8} (ha : legalAddr a = true) (s : State) :
    exec (.cmdSetAddr a) s = .next ({ s.beginStep with laddr := a }.reply .ok) := by
  rw [exec, execCmdSetAddr, if_pos ha]

theorem exec_cmdSetAddr_of_illegal {a : BitVec 8} (ha : ¬ legalAddr a = true) (s : State) :
    exec (.cmdSetAddr a) s = .next (s.beginStep.reply .rejected) := by
  rw [exec, execCmdSetAddr, if_neg ha]

/-- Settles O38: by the two sides of the test on the address. -/
theorem setAddrStoresLegalAddresses : Obligations.SetAddrStoresLegalAddresses := by
  intro s a
  rw [← legalAddr_iff]
  exact ⟨fun ha => ⟨_, exec_cmdSetAddr_of_legal ha s, rfl, (sameRegsBut_withLaddr a s.beginStep).of_beginStep, rfl, rfl,
    rfl, ⟨rfl, rfl, rfl, rfl⟩⟩, fun ha => ⟨_, exec_cmdSetAddr_of_illegal ha s, sameRegs_reply _ s, rfl, rfl, rfl,
    sameRun_reply _ s⟩⟩

/-! ### CMD_SUBMIT (R323) -/

/-- Everything a CMD_SUBMIT can do: it is rejected with a reply, or its frame is accepted, and then started in Idle and
deferred elsewhere (R324). -/
theorem exec_cmdSubmit_cases {n : BitVec 5} {d : List Byte} {s u : State} (hu : exec (.cmdSubmit n d) s = .next u) :
    (∃ r, r ≠ .accepted ∧ u = s.beginStep.reply r) ∨
      (s.state ≠ .disabled ∧ n ≠ 0 ∧ n.toNat ≤ maxLen ∧ s.tx.len = 0 ∧
        ((s.state = .idle ∧ u = enter .txFreeTime none (acceptFrame n d s.beginStep)) ∨
          (s.state ≠ .idle ∧ u = acceptFrame n d s.beginStep))) := by
  cases hu
  split
  · exact .inl ⟨_, by decide, rfl⟩
  next hen =>
    split
    · exact .inl ⟨_, by decide, rfl⟩
    next hvalid =>
      obtain ⟨hn, hle⟩ := not_or.1 hvalid
      split
      · exact .inl ⟨_, by decide, rfl⟩
      next hlen =>
        refine .inr ⟨hen, hn, not_lt.1 hle, not_not.1 hlen, ?_⟩
        split
        next hi => exact .inl ⟨hi, rfl⟩
        next hi => exact .inr ⟨hi, rfl⟩

/-- Whatever the answer, nothing is notified, aborted or given as a selector's result, and the run goes on. -/
theorem cmdSubmit_silent {n : BitVec 5} {d : List Byte} {s u : State} (hu : exec (.cmdSubmit n d) s = .next u) :
    sameRun s u ∧ u.abortCause = none ∧ u.selResult = none ∧ u.out.notify = none := by
  rcases exec_cmdSubmit_cases hu with ⟨r, -, rfl⟩ | ⟨-, -, -, -, ⟨-, rfl⟩ | ⟨-, rfl⟩⟩ <;>
    exact ⟨⟨rfl, rfl, rfl, rfl⟩, rfl, rfl, rfl⟩

/-- The registers written before an entry and by it. -/
theorem sameRegsBut.trans {ws ws' : List Reg} {s t u : State} (h : sameRegsBut ws s t) (h' : sameRegsBut ws' t u) :
    sameRegsBut (ws ++ ws') s u := by
  intro r hr
  obtain ⟨hws, hws'⟩ := not_or.1 (mt List.mem_append.2 hr)
  exact (h' r hws').trans (h r hws)

/-- An accepted frame writes TX_BUF, TX_LEN and TX_RESENDS; the cursor stays (R147). -/
theorem sameRegsBut_acceptFrame (n : BitVec 5) (d : List Byte) (s : State) :
    sameRegsBut (bufRegs .tx ++ [.txLen, .txResends]) s (acceptFrame n d s) := by
  intro r hr
  obtain ⟨hbuf, hlen⟩ := not_or.1 (mt List.mem_append.2 hr)
  cases r with
  | txBuf k => exact absurd (List.mem_map_of_mem (List.mem_finRange k)) hbuf
  | txLen | txResends => exact absurd (by decide) hlen
  | _ => rfl

theorem sameRegsBut_enter_txFreeTime (line : Option Level) (s : State) :
    sameRegsBut (.gpioOut :: entryRegs) s (enter .txFreeTime line s) := by
  intro r hr
  cases r with
  | state | gpioOut | armEdge | armTv | armTmo => exact absurd (by decide) hr
  | _ => rfl

/-- The first bytes are loaded from the data port, the others stay (R147). -/
theorem memRead_acceptFrame {n : BitVec 5} (d : List Byte) {s : State} (hs : buffersWf s) (hle : n.toNat ≤ 16) (k : Nat) :
    memRead (acceptFrame n d s).tx.bb.buf k = if k < n.toNat then d.getD k 0 else memRead s.tx.bb.buf k :=
  memRead_load d hle hs.2 k

/-- Settles O39: one law of CMD_SUBMIT for each clause; the accepted frame by its context, then by what the entry of
TxFreeTime adds in Idle. -/
theorem submitLoadsAndStarts : Obligations.SubmitLoadsAndStarts := by
  intro s n d hs
  obtain ⟨u, hu⟩ := exec_next (.cmdSubmit n d) s
  obtain ⟨hrun, habort, hsel, hnotify⟩ := cmdSubmit_silent hu
  refine ⟨u, hu, hrun, habort, hsel, hnotify, fun hdis => ?_, fun hen hn => ?_, fun hen hpos hle hlen => ?_,
    fun hen hpos hle hlen => ?_⟩
  · rw [exec_cmdSubmit_of_disabled d hdis] at hu
    cases hu
    exact ⟨sameRegs_reply _ s, rfl⟩
  · rw [exec_cmdSubmit_of_invalid d hen hn] at hu
    cases hu
    exact ⟨sameRegs_reply _ s, rfl⟩
  · rw [exec_cmdSubmit_of_pending d hpos hle hen hlen] at hu
    cases hu
    exact ⟨sameRegs_reply _ s, rfl⟩
  · have hbytes := memRead_acceptFrame (s := s.beginStep) d hs hle
    have hframe := (sameRegsBut_acceptFrame n d s.beginStep).of_beginStep
    by_cases hi : s.state = .idle
    · rw [exec_cmdSubmit_of_idle d hpos hle hi hlen] at hu
      cases hu
      exact ⟨hbytes, rfl, rfl, rfl, fun _ => ⟨rfl, hframe.trans (sameRegsBut_enter_txFreeTime none _),
        rfl, rfl, rfl, rfl, rfl, rfl⟩, absurd hi⟩
    · rw [exec_cmdSubmit_of_deferred d hpos hle hen hi hlen] at hu
      cases hu
      exact ⟨hbytes, rfl, rfl, rfl, (absurd · hi), fun _ => ⟨hframe, rfl⟩⟩

/-! ### Steps that report nothing about a frame -/

/-- The record of a step has neither an accepted submission nor a signalled completion. -/
structure Unreported (t : State) : Prop where
  accepted : acceptedCount t = 0
  signalled : signalledCount t = 0

theorem unreported_beginStep (s : State) : Unreported s.beginStep := ⟨rfl, rfl⟩

section Unreported

variable {s : State} (h : Unreported s)
include h

/-- The one notification of an entry is that of a received frame (R222). -/
theorem Unreported.enter (p : PState) (line : Option Level) : Unreported (enter p line s) := by
  obtain ⟨haccepted, hsignalled⟩ := h
  refine ⟨by rwa [acceptedCount, enter_out_result], ?_⟩
  by_cases hp : p = .rxAckFinish
  · subst hp
    rw [signalledCount, enter_rxAckFinish_notify]
    split
    · rfl
    · exact hsignalled
  · rwa [signalledCount, enter_out_notify p line s hp]

theorem Unreported.raiseAbort (cause : AbortCause) : Unreported (raiseAbort cause s) :=
  Unreported.enter (s := { s with abortCause := some cause }) ⟨h.accepted, h.signalled⟩ .idle none

theorem Unreported.mapRx (f : RxCtx → RxCtx) : Unreported (s.mapRx f) := ⟨h.accepted, h.signalled⟩

theorem Unreported.mapTx (f : TxCtx → TxCtx) : Unreported (s.mapTx f) := ⟨h.accepted, h.signalled⟩

/-- No capture completes a frame: transmission runs on timeouts (R310). -/
theorem Unreported.captureIn (p : PState) (t : Tick) : Unreported (captureIn p t s) := by
  cases p with
  | idle | rxAckFinish => exact h.enter _ _
  | txFreeTime => exact (h.mapTx resetTxCursor).enter .rxStartLow none
  | rxStartLow =>
    rw [Machine.captureIn, captureRxStartLow]
    split
    · exact ((h.mapRx _).mapRx _).enter _ _
    · exact h.enter _ _
    · exact (h.mapRx _).raiseAbort _
  | rxStartHigh =>
    rw [Machine.captureIn, captureRxStartHigh]
    split
    · exact h.enter _ _
    · exact h.raiseAbort _
  | rxHeaderInitLow | rxHeaderDestLow | rxDataLow =>
    rw [Machine.captureIn, receiveBitLow]
    split
    · exact h.raiseAbort _
    · exact (h.mapRx _).enter _ _
  | rxHeaderInitHigh | rxHeaderDestHigh | rxDataHigh =>
    rw [Machine.captureIn, receiveBitHigh]
    split
    · exact (h.mapRx _).enter _ _
    · exact h.raiseAbort _
  | rxEomLow =>
    rw [Machine.captureIn, receiveEomLow]
    split
    · exact h.raiseAbort _
    · exact (h.mapRx _).enter _ _
  | rxEomHigh =>
    rw [Machine.captureIn, receiveEomHigh]
    split
    · exact h.enter _ _
    · exact h.raiseAbort _
  | _ => exact h

/-- Of the timeouts only that of TxAckVerify can complete a frame (R303). -/
theorem Unreported.timeoutIn {p : PState} (line : Level) (hp : p ≠ .txAckVerify) : Unreported (timeoutIn p line s) := by
  cases p with
  | disabled | idle => exact h
  | txHeaderInitHigh | txHeaderDestHigh | txDataHigh => exact (h.mapTx _).enter _ _
  | txAckVerify => exact absurd rfl hp
  | rxStartLow => exact (h.mapRx _).raiseAbort _
  | rxAckVerify =>
    rw [Machine.timeoutIn, timeoutRxAckVerify]
    split
    · exact h.raiseAbort _
    · exact h.enter _ _
  | rxAckFinish =>
    rw [Machine.timeoutIn, timeoutRxAckFinish]
    split
    · exact h.enter _ _
    · exact h.raiseAbort _
  | rxStartHigh | rxHeaderInitLow | rxHeaderInitHigh | rxHeaderDestLow | rxHeaderDestHigh | rxEomLow | rxEomHigh
  | rxDataLow | rxDataHigh => exact h.raiseAbort _
  | _ => exact h.enter _ _

end Unreported

/-! ### The account of one step (R324, R325) -/

/-- The account of R325 over one step: what was pending and what is accepted is signalled, dropped or pending still. -/
def Balanced (i : Instr) (s t : State) : Prop :=
  pendingCount s + acceptedCount t = signalledCount t + droppedCount i s + pendingCount t

theorem pendingCount_of_eq {s t : State} (h : t.tx.len = s.tx.len) : pendingCount t = pendingCount s := by
  rw [pendingCount, pendingCount, h]

theorem droppedCount_of_ne {i : Instr} (hi : i ≠ .cmdDisable) (s : State) : droppedCount i s = 0 :=
  if_neg fun h => hi h.1

theorem droppedCount_cmdDisable (s : State) : droppedCount .cmdDisable s = pendingCount s := by
  simp only [droppedCount, pendingCount, true_and, ite_not]

section OneStep

variable {i : Instr} {s t : State}

/-- A step that leaves TX_LEN and reports nothing. -/
theorem Unreported.balanced (h : Unreported t) (hlen : t.tx.len = s.tx.len) (hi : i ≠ .cmdDisable) : Balanced i s t := by
  rw [Balanced, h.accepted, h.signalled, droppedCount_of_ne hi, pendingCount_of_eq hlen]
  omega

/-- A step that takes the pending frame away and says so. -/
theorem EndsFrame.balanced (h : EndsFrame s.tx t) (hpending : s.tx.len ≠ 0) (haccepted : acceptedCount t = 0)
    (hi : i ≠ .cmdDisable) : Balanced i s t := by
  rw [Balanced, haccepted, droppedCount_of_ne hi, signalledCount, if_pos h.told, pendingCount, if_neg hpending,
    pendingCount, if_pos h.len]

/-- A step that accepts a frame where none was pending. -/
theorem balanced_of_accepted (hfree : s.tx.len = 0) (hlen : t.tx.len ≠ 0) (haccepted : acceptedCount t = 1)
    (hsignalled : signalledCount t = 0) (hi : i ≠ .cmdDisable) : Balanced i s t := by
  rw [Balanced, haccepted, hsignalled, droppedCount_of_ne hi, pendingCount, if_pos hfree, pendingCount, if_neg hlen]

end OneStep

/-- A finished frame is signalled, and was pending because the state transmits (R53 (a)). -/
theorem finishSend_balanced {s : State} {n : Notif} (l : Level) (hpending : s.tx.len ≠ 0)
    (hn : n = .sendOk ∨ n = .sendFailed) : Balanced (.evTimeout l) s (finishSend n l s.beginStep) := by
  have hends : EndsFrame s.tx (finishSend n l s.beginStep) := finishSend_endsFrame l s.beginStep hn
  refine hends.balanced hpending ?_ nofun
  rw [acceptedCount, finishSend, enter_out_result]
  rfl

/-- The four verdicts on an ACK: two leave the frame pending, two signal its end (R303). -/
theorem timeoutTxAckVerify_balanced {s : State} (l : Level) (hpending : s.tx.len ≠ 0) :
    Balanced (.evTimeout l) s (timeoutTxAckVerify l s.beginStep) := by
  have hb := unreported_beginStep s
  unfold timeoutTxAckVerify
  split
  · split
    · exact finishSend_balanced l hpending (.inl rfl)
    · exact (hb.enter _ _).balanced rfl nofun
  · split
    · exact ((hb.mapTx _).enter _ _).balanced rfl nofun
    · exact finishSend_balanced l hpending (.inr rfl)

theorem timeoutIn_balanced {s : State} (l : Level) (h : BaseInv s) :
    Balanced (.evTimeout l) s (timeoutIn s.state l s.beginStep) := by
  by_cases hs : s.state = .txAckVerify
  · rw [hs]
    exact timeoutTxAckVerify_balanced l (h.pending (by rw [hs]; rfl))
  · have hquiet := (unreported_beginStep s).timeoutIn l hs
    rcases timeoutIn_frame s.state l s.beginStep with hkeep | hend
    · exact hquiet.balanced hkeep.len nofun
    · have hsignalled := hquiet.signalled
      rw [signalledCount, if_pos hend.told] at hsignalled
      cases hsignalled

theorem cmdSubmit_balanced {n : BitVec 5} {d : List Byte} {s t : State} (h : exec (.cmdSubmit n d) s = .next t) :
    Balanced (.cmdSubmit n d) s t := by
  rcases exec_cmdSubmit_cases h with ⟨r, hr, rfl⟩ | ⟨-, hn, -, hlen, ⟨-, rfl⟩ | ⟨-, rfl⟩⟩
  · have hrejected : acceptedCount (s.beginStep.reply r) = 0 := if_neg fun hc => hr (Option.some.inj hc)
    exact Unreported.balanced ⟨hrejected, rfl⟩ rfl nofun
  · exact balanced_of_accepted hlen hn rfl rfl nofun
  · exact balanced_of_accepted hlen hn rfl rfl nofun

/-- Every input operation settles the account. -/
theorem exec_balanced {i : Instr} {s t : State} (hi : i.isInputOp = true) (hs : BaseInv s) (h : exec i s = .next t) :
    Balanced i s t := by
  have hb := unreported_beginStep s
  cases i with
  | evCapture e =>
    simp only [exec, execEvCapture] at h
    split at h
    · cases h; exact hb.balanced rfl nofun
    · split at h <;> cases h
      · exact Unreported.balanced ⟨rfl, rfl⟩ rfl nofun
      · exact (hb.captureIn s.state e).balanced (captureIn_keepsFrame s.state e s.beginStep).len nofun
  | evTimeout l =>
    simp only [exec, execEvTimeout] at h
    split at h <;> cases h
    · exact timeoutIn_balanced l hs
    · exact hb.balanced rfl nofun
  | cmdEnable =>
    cases h
    split
    · exact (hb.enter .idle none).balanced (enter_tx_len .idle none s.beginStep (by decide)).1 nofun
    · exact hb.balanced rfl nofun
  | cmdDisable =>
    cases h
    have hrecord := hb.enter .disabled none
    have hcleared : pendingCount (enter .disabled none s.beginStep) = 0 := rfl
    rw [Balanced, droppedCount_cmdDisable, hrecord.accepted, hrecord.signalled, hcleared]
    omega
  | cmdSetAddr a => cases h; split <;> exact Unreported.balanced ⟨rfl, rfl⟩ rfl nofun
  | cmdSubmit n d => exact cmdSubmit_balanced h
  | _ => cases hi

/-! ### The account of a run (O20) -/

theorem ledger_cons {i : Instr} {s u : State} (h : exec i s = .next u) (is : List Instr) :
    ledger (i :: is) s =
      (acceptedCount u + (ledger is u).1, signalledCount u + (ledger is u).2.1,
        droppedCount i s + (ledger is u).2.2) := by
  simp only [ledger, h]

/-- Settles O20: by induction over the operations; each settles its own account and keeps BaseInv for the next. -/
theorem everySubmissionEndsOnce : Obligations.EverySubmissionEndsOnce := by
  intro is
  induction is with
  | nil =>
    intro s t _ _ hafter
    cases hafter
    simp only [ledger, Nat.add_zero, Nat.zero_add]
  | cons i is ih =>
    intro s t hops hs hafter
    obtain ⟨hi, his⟩ := List.forall_mem_cons.1 hops
    obtain ⟨u, hu⟩ := exec_next i s
    have hstep : Balanced i s u := exec_balanced hi hs hu
    have hrest := ih u t his (exec_baseInv hs hu) ((after_cons hu is).symm.trans hafter)
    unfold Balanced at hstep
    simp only [ledger_cons hu]
    omega

end Sys2Proof.Machine
end

section
/-! SUPPORT. PROOFS. Exceptions (60_exceptions.md): the abort from any state, the refused capture, and the race of an edge
with its timeout. -/

namespace Sys2Proof.Machine

/-! ### Aborts (R350) -/

theorem sameRun_raiseAbort (cause : AbortCause) (s : State) : sameRun s (raiseAbort cause s) :=
  ⟨raiseAbort_cfg .., raiseAbort_inputs .., raiseAbort_refusedMark .., raiseAbort_freeDraws ..⟩

/-- The cause recorded before is overwritten, so an abort does not depend on it. -/
theorem raiseAbort_withAbortCause (cause : AbortCause) (earlier : Option AbortCause) (s : State) :
    raiseAbort cause { s with abortCause := earlier } = raiseAbort cause s := rfl

/-- `Begun.aborted` where a cause may stand recorded already: the abort is that of the state without it. -/
theorem aborted_raiseAbort (cause : AbortCause) {s : State} (hout : s.out = noOut) (hsel : s.selResult = none) :
    aborted cause s (raiseAbort cause s) := by
  have hb : Begun s { s with abortCause := none } := ⟨hout, hsel, rfl, rfl, rfl, rfl⟩
  rw [← raiseAbort_withAbortCause cause none s]
  exact hb.aborted cause rfl rfl

/-- Settles O35: of the transmit context an abort resets the cursor alone. -/
theorem abortsKeepThePendingFrame : Obligations.AbortsKeepThePendingFrame := by
  intro cause s hout hsel
  obtain ⟨-, htx⟩ := raiseAbort_contexts cause s
  refine ⟨aborted_raiseAbort cause hout hsel, sameRun_raiseAbort cause s, ?_⟩
  rw [htx]
  exact ⟨rfl, rfl, fun _ => rfl⟩

/-! ### Late captures (R374) -/

theorem isLateCapture_of_lt {s : State} {t : Tick} (htv : s.armTv = true) (hlt : s.armTmo.toNat < t.toNat) :
    isLateCapture t s = true := by
  rw [isLateCapture, htv, Bool.true_and, decide_eq_true_eq]
  exact hlt

theorem exec_evCapture_of_late {s : State} {t : Tick} (hedge : s.armEdge ≠ .none) (hlate : isLateCapture t s = true) :
    exec (.evCapture t) s = .next (refuseInput .lateCapture s) := by
  rw [exec, execEvCapture, if_neg hedge, if_pos hlate]

/-- Whatever the reason and whatever mark stood before, a refused input leaves a mark (R108). -/
theorem refuseInput_refusedMark_isSome (why : RefusedInput) (s : State) :
    (refuseInput why s).refusedMark.isSome = true := by
  rw [refuseInput, markRefused_refusedMark, Option.isSome_or, Option.isSome_some, Bool.or_true]

theorem sameRegs_refuseInput (why : RefusedInput) (s : State) : sameRegs s (refuseInput why s) := sameRegs_beginStep s

theorem quiet_refuseInput (why : RefusedInput) (s : State) : quiet (refuseInput why s) := quiet_beginStep s

/-- Settles O24: the second test of R270's rule, and what a refused input leaves. -/
theorem lateCapturesAreRefused : Obligations.LateCapturesAreRefused := by
  intro s t hedge htv hlt
  exact ⟨_, exec_evCapture_of_late hedge (isLateCapture_of_lt htv hlt), refuseInput_refusedMark_isSome _ s,
    sameRegs_refuseInput _ s, quiet_refuseInput _ s, rfl, rfl⟩

/-! ### An edge and its timeout at one tick (R376) -/

/-- Settles O54: an edge exactly at its timeout is not late (`admits_of_le`), so either event is one that R310 covers. -/
theorem raceAdmitsBothSuccessors : Obligations.RaceAdmitsBothSuccessors := by
  intro s h hedge htv
  have hadm : contractAdmits s (.evCapture s.armTmo) = true := admits_of_le hedge le_rfl
  exact ⟨hadm, ⟨_, exec_evCapture_of_admits hadm, h.capture_reaches hadm, sameRun_captureIn ..⟩,
    fun l => ⟨htv, _, exec_evTimeout_of_armed htv, h.timeout_reaches l htv, sameRun_timeoutIn ..⟩⟩

end Sys2Proof.Machine
end

section
/-! SUPPORT. PROOFS. Reset (70_reset_and_hazards.md): the registers after reset, the reset of any state, and CMD_DISABLE
compared with it. Both perform the writes of the Disabled entry (R390, R393), so that entry's effect is said once. -/

namespace Sys2Proof.Machine

/-! ### The writes of the Disabled entry -/

theorem clearRx_eq_reset {rx : RxCtx} (h : Memory.wf rx.bb.buf = true) : clearRx rx = State.reset.rx := by
  rw [clearRx, clear_eq_reset h, State.reset]

theorem clearTx_eq_reset {tx : TxCtx} (h : Memory.wf tx.bb.buf = true) : clearTx tx = State.reset.tx := by
  rw [clearTx, clear_eq_reset h, State.reset]

/-- LADDR is the one register that the Disabled entry does not write (R224). -/
theorem enter_disabled_eq (line : Option Level) {s : State} (h : buffersWf s) :
    enter .disabled line s =
      { State.reset with
        laddr := s.laddr, cfg := s.cfg, inputs := s.inputs, freeDraws := s.freeDraws,
        out := { s.out with gpio := some released, arm := some (.none, none) },
        selResult := s.selResult, abortCause := s.abortCause, refusedMark := s.refusedMark } := by
  obtain ⟨hrx, htx⟩ := h
  have hwritten : enter .disabled line s =
      { s with
        state := .disabled, gpioOut := released, armEdge := .none, armTv := false, armTmo := 0,
        rx := clearRx s.rx, tx := clearTx s.tx,
        out := { s.out with gpio := some released, arm := some (.none, none) } } := rfl
  rw [hwritten, clearRx_eq_reset hrx, clearTx_eq_reset htx]
  rfl

theorem sameRegsBut_reset_enter_disabled (line : Option Level) {s : State} (h : buffersWf s) :
    sameRegsBut [.laddr] State.reset (enter .disabled line s) := by
  intro r hr
  rw [enter_disabled_eq line h]
  cases r with
  | laddr => exact absurd (List.mem_singleton_self _) hr
  | _ => rfl

/-! ### Reset (R390, R391) -/

/-- The table of R391 is what State.reset holds. -/
theorem readReg_reset (r : Reg) : State.reset.readReg r = regReset r := by
  cases r <;> rfl

theorem regReset_of_ne {r : Reg} (haddr : r ≠ .laddr) (hline : r ≠ .gpioOut) : regReset r = 0 := by
  cases r with
  | laddr => exact absurd rfl haddr
  | gpioOut => exact absurd rfl hline
  | _ => rfl

/-- Settles O10: the table of R391, whose two values other than 0 are those of LADDR and GPIO_OUT. -/
theorem resetRegisterValues : Obligations.ResetRegisterValues :=
  ⟨readReg_reset .laddr, readReg_reset .gpioOut,
    fun r haddr hline => (readReg_reset r).trans (regReset_of_ne haddr hline)⟩

/-- Settles O11: the Disabled entry from the state whose LADDR is 255 already. -/
theorem resetOfAnyState : Obligations.ResetOfAnyState := by
  intro s h
  have hunregistered : buffersWf { s with laddr := 255 } := h
  rw [applyReset, enter_disabled_eq none hunregistered]
  rfl

theorem sameRegs_reset_applyReset {s : State} (h : buffersWf s) : sameRegs State.reset (applyReset s) := by
  intro r
  rw [resetOfAnyState s h]
  cases r <;> rfl

/-! ### CMD_DISABLE compared with reset (R393) -/

/-- Settles O12: both are the Disabled entry, which keeps LADDR and notifies nothing; reset sets LADDR before it. -/
theorem disableLeavesResetButTheAddress : Obligations.DisableLeavesResetButTheAddress := by
  intro s h
  have hdisable : sameRegsBut [.laddr] State.reset (enter .disabled none s.beginStep) :=
    sameRegsBut_reset_enter_disabled none h
  have hreset : sameRegs State.reset (applyReset s) := sameRegs_reset_applyReset h
  exact ⟨_, rfl, fun r hr => hdisable r (mt List.mem_singleton.1 hr), enter_laddr ..,
    enter_out_notify _ _ _ (by decide), enter_laddr .., fun r _ => hreset r, rfl⟩

end Sys2Proof.Machine
end
